-- ==== Sys2Proof/Word.lean ====
section
/-! DEFINITION. The word types of the BJ-464's ports and records, and the plain types its commands carry (spec/00_scope.md 5.1 to 5.3; spec/01_the_memory_path.md R1). -/

namespace Sys2Proof

abbrev Byte := BitVec 8

/-- A word is 32 bits (00, 5.1); byte addresses are 32 bits too. -/
abbrev Word := BitVec 32

/-- A letter's 16-bit serial number (00, 5.2). -/
abbrev Tag := BitVec 16

/-- A value of the 24-bit position counter (R46). -/
abbrev Position := BitVec 24

/-- One of the 64 pocket positions (R124). -/
abbrev PocketIx := Fin 64

/-- One of the four read stations (R71). -/
abbrev StationIx := Fin 4

/-- A backplane master number, 0 to 7 (R1). -/
abbrev MasterNo := BitVec 3

/-- The four byte enables of a write (R1). -/
abbrev Enables := BitVec 4

/-- The 17 data digits of an account code, packed as 10.1 gives: digit 1 in bits 3:0. -/
abbrev AccountKey := BitVec 68

/-- A read, or a write with its data and byte enables (R1). -/
inductive BusOp where
  | read
  | write (data : Word) (enables : Enables)
deriving DecidableEq, Repr

/-- One backplane access (R1). -/
structure Access where
  addr   : Word
  master : MasterNo
  op     : BusOp
deriving DecidableEq, Repr

/-- Memory's answer to an access that may be a read: OK with a word, or ERROR. A write's answer carries a word that nothing uses. -/
inductive MemAnswer where
  | ok (data : Word)
  | error
deriving DecidableEq, Repr

/-- Memory's answer to an own write: OK or ERROR (R18). -/
inductive WriteAnswer where
  | ok
  | error
deriving DecidableEq, Repr

/-- The two ATTN modes (R167, R168). -/
inductive AttnMode where
  | level
  | first
deriving DecidableEq, Repr

end Sys2Proof
end

