-- ==== Sys2Proof/Syntax.lean ====
section
/-! DEFINITION. The commands of the BJ-464: one constructor for each row of spec/opcode_table.json. Where a row is a step the outside causes, its operands are what the rule of that step says the step carries. -/

namespace Sys2Proof

inductive Instr where
  /-- RESET_ASSERT (R22). -/
  | resetAssert
  /-- RESET_RELEASE (R3, R23), with the strap levels CB and CM sampled at the release. -/
  | resetRelease (cb : BitVec 4) (cm : MasterNo)
  /-- ENC_ADVANCE (R46). -/
  | encAdvance
  /-- STALL_EXPIRY (R51, R52). -/
  | stallExpiry
  /-- LOST_EXPIRY (R50). -/
  | lostExpiry
  /-- DECIDE_EXPIRY (R49). -/
  | decideExpiry
  /-- BACKPLANE_ACCESS (R1, R2). -/
  | backplaneAccess (a : Access)
  /-- GATE_DISPATCH (R112 to R115): the gate master reads slot `slot`. -/
  | gateDispatch (slot : BitVec 8)
  /-- ARBITER_GRANT (R20). -/
  | arbiterGrant
  /-- PASSTHROUGH_DONE (R14): memory answers the forwarded access. -/
  | passthroughDone (answer : MemAnswer)
  /-- INDUCTION_RING_WRITE (R58): the snoop of the word at `offset` (in words, R15). -/
  | inductionRingWrite (offset : Nat) (data : Word) (enables : Enables)
  /-- STATION_RING_WRITE (R73, R74): the snoop of the word at `offset` of station `st`'s ring. -/
  | stationRingWrite (st : StationIx) (offset : Nat) (data : Word) (enables : Enables)
  /-- DRAIN_COMPLETE (R132). -/
  | drainComplete (p : PocketIx)
  /-- PLAN_READ_DONE (R35, R36). -/
  | planReadDone (answer : MemAnswer)
  /-- CHAIN_DESC_READ_DONE (R147). -/
  | chainDescReadDone (answer : MemAnswer)
  /-- CHAIN_REREAD_DONE (R155). -/
  | chainRereadDone (answer : MemAnswer)
  /-- CHAIN_RECORD_WORD_DONE (R148, R151). -/
  | chainRecordWordDone (answer : WriteAnswer)
  /-- CHAIN_COMPLETION_DONE (R150, R151). -/
  | chainCompletionDone (answer : WriteAnswer)
  /-- NOTICE_WORD_WRITE_DONE (R163, R165). -/
  | noticeWordWriteDone (answer : WriteAnswer)
  /-- LOAD_PLAN (R34): the image address divided by 64. -/
  | loadPlan (arg : BitVec 24)
  /-- LOAD_ABORT (R41). -/
  | loadAbort
  /-- START (R54). -/
  | start
  /-- STOP (R55). -/
  | stop
  /-- PURGE (R120). -/
  | purge
  /-- SWEEP_FIRST (R137). -/
  | sweepFirst (p : PocketIx)
  /-- SWEEP_LAST (R137). -/
  | sweepLast (p : PocketIx)
  /-- SWEEP_EXCLUDE (R138). -/
  | sweepExclude (p : PocketIx)
  /-- SWEEP_GO (R136). -/
  | sweepGo
  /-- POCKET_OPEN (R131). -/
  | pocketOpen (p : PocketIx)
  /-- POCKET_DISABLE (R130). -/
  | pocketDisable (p : PocketIx)
  /-- POCKET_ENABLE (R131). -/
  | pocketEnable (p : PocketIx)
  /-- STATION_ENABLE (R91). -/
  | stationEnable (st : StationIx)
  /-- STATION_DISABLE (R90). -/
  | stationDisable (st : StationIx)
  /-- STATION_RESTART (R92). -/
  | stationRestart (st : StationIx)
  /-- CHAIN_START (R152). -/
  | chainStart
  /-- CHAIN_RESUME (R155). -/
  | chainResume
  /-- CHAIN_STOP (R154). -/
  | chainStop
  /-- CHAIN_FLUSH (R153). -/
  | chainFlush
  /-- SET_NOTICE_MASK (R160). -/
  | setNoticeMask (mask : BitVec 8)
  /-- SET_ATTN_MODE (R160). -/
  | setAttnMode (mode : AttnMode)
  /-- STATUS_CLEAR (R160). -/
  | statusClear
  /-- BAD_COMMAND (R157): a command-word write that fails check 1, 2 or 3. -/
  | badCommand (word : Word) (enables : Enables)
  /-- NOTICE_CONSUMER_INDEX (R164). -/
  | noticeConsumerIndex (data : Word) (enables : Enables)
  /-- CHAIN_BASE_POINTER (R144). -/
  | chainBasePointer (data : Word) (enables : Enables)
  /-- CHAIN_LAST_POINTER (R144, R155). -/
  | chainLastPointer (data : Word) (enables : Enables)
deriving DecidableEq, Repr

end Sys2Proof
end

