-- ==== Sys2Proof/Decode.lean ====
section
/-! DEFINITION. The decoder of the table's rows (spec/opcode_table.json gives no row any bits, so it spells no command), and the decoder of the snooped command word with its encodings (R157, R172, R174; 10.3), and the bit, byte and CRC helpers of every format. -/

namespace Sys2Proof

/-- No row of the table gives bits: no word spells a command. -/
def decodeTableWord (_nbits _w : Nat) : Option Instr := none

/-! ### Bits and bytes -/

/-- The number in bits `lo` to `lo + len - 1` of a word. -/
def bitsAt (w : Word) (lo len : Nat) : Nat := (w.extractLsb' lo len).toNat

/-- Bit `n` of a word. -/
def bitAt (w : Word) (n : Nat) : Bool := w.getLsbD n

/-- The value `v` placed at bit `lo` of a word. -/
def field (v lo : Nat) : Word := BitVec.ofNat 32 v <<< lo

/-- The flag `b` placed at bit `n` of a word. -/
def flag (b : Bool) (n : Nat) : Word := field b.toNat n

/-- A write with all four byte enables set (00, 5.1). -/
def fullWrite (enables : Enables) : Bool := enables == 0xF#4

/-- The four bytes of a word, lowest address first (00, 5.1). -/
def wordBytes (w : Word) : List Byte :=
  [w.extractLsb' 0 8, w.extractLsb' 8 8, w.extractLsb' 16 8, w.extractLsb' 24 8]

/-- The bytes of words at ascending addresses. -/
def wordsBytes : List Word → List Byte
  | [] => []
  | w :: ws => wordBytes w ++ wordsBytes ws

/-- Byte `i` of a block. -/
def byteAt (bs : List Byte) (i : Nat) : Nat := (bs.getD i 0#8).toNat

/-- The 16-bit little-endian number at byte `i`. -/
def le16At (bs : List Byte) (i : Nat) : Nat := byteAt bs i + 256 * byteAt bs (i + 1)

/-- The 32-bit little-endian number at byte `i`. -/
def le32At (bs : List Byte) (i : Nat) : Nat := le16At bs i + 65536 * le16At bs (i + 2)

/-- The `n` bytes from byte `i` on are all zero. -/
def zeroBytes (bs : List Byte) (i n : Nat) : Bool := ((bs.drop i).take n).all (· == 0#8)

/-! ### CRC-16 (R25) -/

/-- One bit of the CRC: feedback is the register's top bit exclusive-or the data bit (R25). -/
def crcBit (reg : BitVec 16) (b : Bool) : BitVec 16 :=
  if (reg.getLsbD 15 ^^ b) then (reg <<< 1) ^^^ 0x1021#16 else reg <<< 1

/-- One byte, most significant bit first (R25). -/
def crcByte (reg : BitVec 16) (b : Byte) : BitVec 16 :=
  [7, 6, 5, 4, 3, 2, 1, 0].foldl (fun r i => crcBit r (b.getLsbD i)) reg

/-- The CRC-16 of bytes in ascending address order (R25). -/
def crc16 (bs : List Byte) : BitVec 16 := bs.foldl crcByte 0#16

/-! ### The command word (10.3) -/

/-- A command that passes checks 1 to 3 of R157: a known opcode with its argument field and no reserved argument bit set. -/
inductive Command where
  | loadPlan (arg : BitVec 24)
  | loadAbort
  | start
  | stop
  | purge
  | sweepFirst (p : PocketIx)
  | sweepLast (p : PocketIx)
  | sweepExclude (p : PocketIx)
  | sweepGo
  | pocketOpen (p : PocketIx)
  | pocketDisable (p : PocketIx)
  | pocketEnable (p : PocketIx)
  | stationEnable (st : StationIx)
  | stationDisable (st : StationIx)
  | stationRestart (st : StationIx)
  | chainStart
  | chainResume
  | chainStop
  | chainFlush
  | setNoticeMask (mask : BitVec 8)
  | setAttnMode (mode : AttnMode)
  | statusClear
deriving DecidableEq, Repr

/-- The opcode of a command (10.3). -/
def Command.opcode : Command → Byte
  | .loadPlan _ => 0x01#8
  | .loadAbort => 0x02#8
  | .start => 0x10#8
  | .stop => 0x11#8
  | .purge => 0x12#8
  | .sweepFirst _ => 0x20#8
  | .sweepLast _ => 0x21#8
  | .sweepExclude _ => 0x22#8
  | .sweepGo => 0x23#8
  | .pocketOpen _ => 0x28#8
  | .pocketDisable _ => 0x29#8
  | .pocketEnable _ => 0x2A#8
  | .stationEnable _ => 0x30#8
  | .stationDisable _ => 0x31#8
  | .stationRestart _ => 0x32#8
  | .chainStart => 0x40#8
  | .chainResume => 0x41#8
  | .chainStop => 0x42#8
  | .chainFlush => 0x43#8
  | .setNoticeMask _ => 0x50#8
  | .setAttnMode _ => 0x51#8
  | .statusClear => 0x52#8

/-- The mode bit of SET_ATTN_MODE (10.3). -/
def AttnMode.code : AttnMode → Nat
  | .level => 0
  | .first => 1

/-- The 24-bit argument of a command (10.3). -/
def Command.argument : Command → BitVec 24
  | .loadPlan arg => arg
  | .sweepFirst p | .sweepLast p | .sweepExclude p => BitVec.ofNat 24 p.val
  | .pocketOpen p | .pocketDisable p | .pocketEnable p => BitVec.ofNat 24 p.val
  | .stationEnable st | .stationDisable st | .stationRestart st => BitVec.ofNat 24 st.val
  | .setNoticeMask mask => BitVec.ofNat 24 mask.toNat
  | .setAttnMode mode => BitVec.ofNat 24 mode.code
  | .loadAbort | .start | .stop | .purge | .sweepGo => 0#24
  | .chainStart | .chainResume | .chainStop | .chainFlush | .statusClear => 0#24

/-- The command word of a command: opcode in bits 7:0, argument in bits 31:8 (10.3). -/
def Command.word (c : Command) : Word := c.argument ++ c.opcode

/-- A command without an argument field: all 24 argument bits are reserved (R159). -/
def plainCommand (arg : BitVec 24) (c : Command) : Option Command :=
  if arg = 0#24 then some c else none

/-- A command with a pocket field in argument bits 5:0 (10.3). -/
def pocketCommand (arg : BitVec 24) (c : PocketIx → Command) : Option Command :=
  if h : arg.toNat < 64 then some (c ⟨arg.toNat, h⟩) else none

/-- A command with a station field in argument bits 1:0 (10.3). -/
def stationCommand (arg : BitVec 24) (c : StationIx → Command) : Option Command :=
  if h : arg.toNat < 4 then some (c ⟨arg.toNat, h⟩) else none

/-- SET_ATTN_MODE: argument bit 0 is the mode (10.3). -/
def modeCommand (arg : BitVec 24) : Option Command :=
  if arg = 0#24 then some (.setAttnMode .level)
  else if arg = 1#24 then some (.setAttnMode .first)
  else none

/-- SET_NOTICE_MASK: argument bits 7:0 are the mask (10.3). -/
def maskCommand (arg : BitVec 24) : Option Command :=
  if arg.toNat < 256 then some (.setNoticeMask (arg.setWidth 8)) else none

/-- Checks 2 and 3 of R157: the opcode is known and no reserved argument bit is set. -/
def decodeCommand (w : Word) : Option Command :=
  let arg := w.extractLsb' 8 24
  match (w.extractLsb' 0 8).toNat with
  | 0x01 => some (.loadPlan arg)
  | 0x02 => plainCommand arg .loadAbort
  | 0x10 => plainCommand arg .start
  | 0x11 => plainCommand arg .stop
  | 0x12 => plainCommand arg .purge
  | 0x20 => pocketCommand arg .sweepFirst
  | 0x21 => pocketCommand arg .sweepLast
  | 0x22 => pocketCommand arg .sweepExclude
  | 0x23 => plainCommand arg .sweepGo
  | 0x28 => pocketCommand arg .pocketOpen
  | 0x29 => pocketCommand arg .pocketDisable
  | 0x2A => pocketCommand arg .pocketEnable
  | 0x30 => stationCommand arg .stationEnable
  | 0x31 => stationCommand arg .stationDisable
  | 0x32 => stationCommand arg .stationRestart
  | 0x40 => plainCommand arg .chainStart
  | 0x41 => plainCommand arg .chainResume
  | 0x42 => plainCommand arg .chainStop
  | 0x43 => plainCommand arg .chainFlush
  | 0x50 => maskCommand arg
  | 0x51 => modeCommand arg
  | 0x52 => plainCommand arg .statusClear
  | _ => none

/-- Checks 1 to 3 of R157 on a write of the command word. -/
def acceptCommandWord (w : Word) (enables : Enables) : Option Command :=
  if fullWrite enables then decodeCommand w else none

end Sys2Proof
end

