-- ==== Sys2Proof/Config.lean ====
section
/-! DEFINITION. What the BJ-464 fixes once: its limits and identity (each from the rule named), and the strap levels that State.reset is sampled with. One point that an implementation decides is a constant without a body. -/

namespace Sys2Proof.Config

/-- The strap CB that State.reset is sampled with. DESIGN CHOICE, unsafe: the board decides (log 1). -/
def resetCB : BitVec 4 := 0

/-- The strap CM that State.reset is sampled with. DESIGN CHOICE, unsafe: the board decides (log 1). -/
def resetCM : MasterNo := 0

/-- Most letters in the transit list (R60, R63). -/
def maxTransit : Nat := 32

/-- Most letters in transit and retire buffer together (R57, R60). -/
def maxSum : Nat := 64

/-- The sum at which the occupancy latch is set (R57). -/
def occupancySet : Nat := 48

/-- The sum at or below which the occupancy latch is cleared (R57). -/
def occupancyClear : Nat := 39

/-- Most entries in the notice FIFO (R161, R162). -/
def maxFifo : Nat := 32

/-- Greatest value of a saturating fill (R113). -/
def maxFill : Nat := 4095

/-- Greatest value of the 16-bit saturating counts (R61, R71, R161). -/
def maxCount16 : Nat := 65535

/-- Greatest value of the miss counter and the late-read count (R64, R71). -/
def maxCount4 : Nat := 15

/-- Most reads in a read set (R84). -/
def maxReads : Nat := 4

/-- Rejects in a row that end a lock (R80). -/
def faultRunLimit : Nat := 3

/-- Most pockets in a sweep's exclusion list (R138). -/
def maxExclusions : Nat := 8

/-- REFCLK edges in one unit of the stall timeout (R51). -/
def stallUnit : Nat := 10000

/-- Wait count at which an own requester goes before passthrough (R20). -/
def waitLimit : Nat := 4

/-- Status word 0: part code 0x0464, revision 0x01 (10.3). -/
def identity : Word := 0x04640001#32

/-- The magic word of block 0 (R27). -/
def planMagic : Nat := 0x504C4A42

/-- Whether stop after completion survives a completion word that memory answers with ERROR: R151 and R154 do not say. A free constant, DESIGN CHOICE, safe (log 9). -/
opaque stopSurvivesFault : Bool

end Sys2Proof.Config
end

