-- ==== Sys2Proof/Machine/State.lean ====
section
/-! DEFINITION. The state of the BJ-464: every register, FIFO, buffer, counter, mode and pin its manual gives it, block by block (spec/00_scope.md section 3), the queue of commands waiting, and the state right after reset. -/

namespace Sys2Proof.Machine

/-! ### Memory path (01) -/

/-- The kinds of layout and load windows (R6). -/
inductive WindowKind where
  | inductionRing
  | stationRing (st : StationIx)
  | gateWindow
  | noticeRing
  | planImage
deriving DecidableEq, Repr

/-- An entry of the window table (R6). The owner is present for the rings only. -/
structure Window where
  kind   : WindowKind
  base   : Nat
  length : Nat
  owner  : Option MasterNo
deriving DecidableEq, Repr

/-- What holds an addressed word (R2, R4). A layout window comes with the word's offset from its base, in words (R15). -/
inductive Region where
  | commandWord
  | consumerIndex
  | basePointer
  | lastPointer
  | statusBlock (w : Nat)
  | pocketStatus (p : PocketIx)
  | pocketBatch (p : PocketIx)
  | window (w : Window) (offset : Nat)
  | ordinary
deriving DecidableEq, Repr

/-- A backplane access that has been classified as forwarded and not yet answered (R1, R17). -/
structure Forwarded where
  access  : Access
  region  : Region
  granted : Bool
deriving DecidableEq, Repr

/-- What the backplane port last answered, and to which master: OK (with a word, for a read) or ERROR (R1). The model's own record of an output. -/
structure BusResponse where
  master : MasterNo
  answer : Option (Option Word)
deriving DecidableEq, Repr

structure Backplane where
  /-- The forwarded access in the part (R1: at most one). -/
  busy     : Option Forwarded
  response : Option BusResponse
deriving DecidableEq, Repr

/-- Who holds or wants the memory port (R18, R20). -/
inductive Requester where
  | passthrough
  | notice
  | chain
  | plan
deriving DecidableEq, Repr

/-- The purpose of an access at the memory port (R18). -/
inductive Job where
  | passthrough (master : MasterNo)
  | noticeWord
  | chainDesc
  | chainReread
  | chainRecord
  | chainCompletion
  | planRead
deriving DecidableEq, Repr

/-- An access as the memory port carries it: word address and operation (R1). -/
structure MemAccess where
  addr : Word
  op   : BusOp
deriving DecidableEq, Repr

/-- An own access presented and not yet granted (R20). -/
structure OwnAccess where
  job    : Job
  access : MemAccess
deriving DecidableEq, Repr

/-- An own requester at the arbiter: its pending access and its wait count (R20). -/
structure OwnReq where
  req  : Option OwnAccess
  wait : Nat
deriving DecidableEq, Repr

/-- The access that holds the memory port (R20, R21), and whether its requester has abandoned it (R19, R22). -/
structure Granted where
  job       : Job
  access    : MemAccess
  abandoned : Bool
deriving DecidableEq, Repr

/-! ### Plan loader (02) -/

inductive PlanState where
  | invalid
  | loading
  | valid
deriving DecidableEq, Repr

/-- A layout: payload bytes 0 to 59 of a block 0 (R27, R28, 10.5). -/
structure Layout where
  payload : List Byte
deriving DecidableEq, Repr

inductive FieldSelector where
  | any
  | district
  | cycle
  | account
  | mailBatch
deriving DecidableEq, Repr

inductive ForwardCondition where
  | any
  | present
  | absent
deriving DecidableEq, Repr

/-- A sort rule (R31, R32). -/
structure Rule where
  selector : FieldSelector
  forward  : ForwardCondition
  pocket   : PocketIx
  reasons  : BitVec 16
  low      : Nat
  high     : Nat
deriving DecidableEq, Repr

/-- The parameters of a block 1 (R29). -/
structure Params where
  planId        : Word
  ruleCount     : Nat
  defaultPocket : PocketIx
  noReadPocket  : PocketIx
  minGrade      : Nat
  missLimit     : Nat
  noticeMask    : BitVec 8
  attnMode      : AttnMode
deriving DecidableEq, Repr

/-- A pocket configuration record of a plan image (R30). -/
structure PocketRecord where
  capacity  : Nat
  threshold : Nat
  partner   : Option PocketIx
  opens     : Bool
deriving DecidableEq, Repr

/-- A load in progress (R34, R35): what has been read and what it has taught. -/
structure Load where
  image          : Word
  /-- Index of the block being read. -/
  block          : Nat
  /-- Words of that block that have arrived. -/
  words          : List Word
  /-- Block 0, once it has passed (R27). -/
  layout         : Option Layout
  /-- The layout is to be applied at completion (R28). -/
  changed        : Bool
  /-- Block 1, once it has passed (R29). -/
  params         : Option Params
  records        : List PocketRecord
  rules          : List Rule
  /-- Kept for the load's acknowledgment (R34, step 5). -/
  sweepCancelled : Bool
deriving DecidableEq, Repr

structure Plan where
  state         : PlanState
  load          : Option Load
  layout        : Option Layout
  rules         : List Rule
  planId        : Word
  defaultPocket : PocketIx
  noReadPocket  : PocketIx
  minGrade      : Nat
  missLimit     : Nat
deriving DecidableEq, Repr

/-! ### Transport monitor and transit list (03) -/

inductive LineState where
  | stopped
  | running
  | stalled
deriving DecidableEq, Repr

structure Transport where
  position  : Position
  line      : LineState
  /-- The stall monitor: stopped, or running with the REFCLK edges counted since its restart (R51). -/
  stall     : Option Nat
  feedHold  : Bool
  occupancy : Bool
deriving DecidableEq, Repr

inductive LengthClass where
  | short
  | normal
  | long
deriving DecidableEq, Repr

/-- Decision causes (5.4, 10.1). -/
inductive Cause where
  | none
  | rule
  | default
  | noRead
  | noPlan
  | doubleFeed
  | gap
  | conflict
  | intendedFull
  | intendedClosed
  | lateDecision
deriving DecidableEq, Repr

/-- A letter's decision (R64, R105). -/
structure Decision where
  intended   : PocketIx
  final      : PocketIx
  cause      : Cause
  viaPartner : Bool
  /-- Present when the cause is RULE. -/
  ruleIndex  : Option Nat
deriving DecidableEq, Repr

inductive LetterState where
  | collecting
  | awaitPlan
  | decided (d : Decision)
deriving DecidableEq, Repr

/-- What a read carries (R82). -/
inductive ReadBody where
  | account (key : AccountKey) (check : BitVec 4)
  | endorse (reason : Byte)
  | forward
deriving DecidableEq, Repr

/-- A read in a letter's read set (R82). -/
structure Read where
  station : StationIx
  body    : ReadBody
  grade   : Nat
  valid   : Bool
deriving DecidableEq, Repr

/-- A letter record (R61, R64). -/
structure Letter where
  tag            : Tag
  entryPos       : Position
  lengthClass    : LengthClass
  double         : Bool
  close          : Bool
  state          : LetterState
  reads          : List Read
  reported       : Vector Bool 4
  overrun        : Bool
  lateReads      : Nat
  accountKey     : Option AccountKey
  reasonClass    : BitVec 4
  forwardPresent : Bool
deriving DecidableEq, Repr

/-- The entry assembly (R58). -/
inductive EntryAssembly where
  | waiting
  | holding (index : Nat) (first : Word)
deriving DecidableEq, Repr

structure Transit where
  letters  : List Letter
  assembly : EntryAssembly
  lastTag  : Option Tag
  gap      : Option Nat
deriving DecidableEq, Repr

/-! ### Station unit (04) -/

inductive Framing where
  | off
  | hunt
  | locked
deriving DecidableEq, Repr

inductive Expectation where
  | expected
  | degraded
deriving DecidableEq, Repr

/-- The record assembly of a context, with its collected words (R71, R74). -/
inductive RecordAssembly where
  | seek
  | collecting (slot : Nat) (words : List Word)
deriving DecidableEq, Repr

/-- A station context (R71). -/
structure Station where
  framing     : Framing
  expectation : Expectation
  assembly    : RecordAssembly
  misses      : Nat
  faultRun    : Nat
  lastTag     : Option Tag
  rejects     : Nat
deriving DecidableEq, Repr

/-! ### Pocket table (07) -/

inductive DrainTarget where
  | closed
  | disabled
deriving DecidableEq, Repr

inductive PocketState where
  | disabled
  | opened
  | draining (target : DrainTarget)
  | closed
deriving DecidableEq, Repr

/-- A pocket record: configuration and run state (R124). -/
structure Pocket where
  capacity  : Option Nat
  threshold : Nat
  partner   : Option PocketIx
  state     : PocketState
  fill      : Nat
  inFlight  : Nat
  batch     : BitVec 16
deriving DecidableEq, Repr

/-- The sweep sequence (R135). -/
inductive Sweep where
  | idle
  | firstSet (first : PocketIx)
  | rangeSet (first last : PocketIx) (excluded : List PocketIx)
deriving DecidableEq, Repr

/-! ### Disposition chain (06, 08) -/

inductive DispositionOutcome where
  | dispatched
  | lateDecision
  | lost
  | purged
deriving DecidableEq, Repr

/-- A disposition record (R121). -/
structure Disposition where
  tag            : Tag
  outcome        : DispositionOutcome
  intended       : Option PocketIx
  final          : Option PocketIx
  cause          : Cause
  viaPartner     : Bool
  ruleIndex      : Option Nat
  batch          : BitVec 16
  accountKey     : Option AccountKey
  reasonClass    : BitVec 4
  forwardPresent : Bool
  readsTaken     : Nat
  reported       : Vector Bool 4
  lateReads      : Nat
  overrun        : Bool
  lengthClass    : LengthClass
  double         : Bool
  close          : Bool
  entryPos       : Position
  leavePos       : Position
deriving DecidableEq, Repr

/-- A record in the retire buffer with its batch boundary mark (R141). -/
structure Retired where
  record   : Disposition
  boundary : Bool
deriving DecidableEq, Repr

inductive ChainState where
  | off
  | fetch
  | filling
  | held
  | fault
deriving DecidableEq, Repr

inductive ChainMode where
  | hold
  | lastAddress
deriving DecidableEq, Repr

/-- The end of a descriptor (R143). -/
inductive EndCause where
  | full
  | flush
  | batch
  | stop
  | empty
  | align
deriving DecidableEq, Repr

inductive ChainFault where
  | none
  | align
  | empty
  | memory
deriving DecidableEq, Repr

/-- The engine's work in progress (R145). A completion is in progress from the event in which it is due (R149). -/
inductive ChainWork where
  | none
  /-- Reading word 0, 1 or 2 of a descriptor (R147). -/
  | descriptor (word : Fin 3)
  /-- Writing the completion word of a refused descriptor (R147). -/
  | refusal (e : EndCause)
  /-- Re-reading word 0 of the held descriptor (R155). -/
  | rereadControl
  /-- Re-reading word 1, with the HOLD flag found in word 0 (clear in LAST_ADDRESS mode, which does not use it). -/
  | rereadNext (hold : Bool)
  /-- Writing the head record, with the word reached (R148). -/
  | record (word : Fin 8)
  /-- Writing the completion word (R149). -/
  | completion (e : EndCause)
deriving DecidableEq, Repr

structure Chain where
  state        : ChainState
  mode         : ChainMode
  descAddr     : Word
  control      : Word
  next         : Word
  area         : Word
  count        : Nat
  work         : ChainWork
  pendingFlush : Bool
  stopAfter    : Bool
  fault        : ChainFault
  base         : Word
  last         : Word
  lastWritten  : Bool
deriving DecidableEq, Repr

/-! ### Command unit (09) -/

inductive ResultCode where
  | ok
  | busy
  | badCommand
  | badArg
  | badState
  | seqError
  | noPlan
  | loadFailed
  | none
deriving DecidableEq, Repr

/-- The causes of a load failure (R37). -/
inductive LoadCause where
  | crc
  | sequence
  | header
  | pocketRecord
  | ruleRecord
  | layoutLocked
  | memory
  | aborted
deriving DecidableEq, Repr

/-- The content of an acknowledgment (R159). -/
structure CmdResult where
  opcode         : Byte
  result         : ResultCode
  sweepCancelled : Bool
  loadCause      : Option LoadCause
  arg            : Word
deriving DecidableEq, Repr

structure CommandUnit where
  /-- The command state: EXECUTING when set, IDLE when clear (R158). -/
  executing : Bool
  last      : CmdResult
  ackCount  : BitVec 16
deriving DecidableEq, Repr

/-! ### Notice unit (09) -/

/-- The notice kinds (R161, 10.7). -/
inductive NoticeKind where
  | cmdAck
  | ringFault
  | lineState
  | feedHold
  | pocketNearFull
  | pocketFull
  | pocketClosed
  | sweepSkip
  | stationState
  | stationDegraded
  | recordReject
  | untrackedEntry
  | inductionFraming
  | untrackedDispatch
  | letterLost
  | writeBlocked
  | chainState
  | chainDescDone
deriving DecidableEq, Repr

/-- A notice entry (R161). A field that the raising rule does not name is 0 (R161, R173). -/
structure Notice where
  kind     : NoticeKind
  source   : Byte := 0#8
  result   : BitVec 4 := 0#4
  cause    : BitVec 4 := 0#4
  arg16    : BitVec 16 := 0#16
  arg32    : Word := 0#32
  position : Position := 0#24
deriving DecidableEq, Repr

structure NoticeUnit where
  mask      : BitVec 8
  fifo      : List Notice
  lostCount : Nat
  lost      : Bool
  memory    : Bool
  guard     : Bool
  badIndex  : Bool
  ringFault : Bool
  producer  : Nat
  consumer  : Nat
  /-- The notice write in progress, with the word reached (R163). -/
  writing   : Option (Fin 4)
  mode      : AttnMode
  armed     : Bool
  attn      : Bool
deriving DecidableEq, Repr

/-! ### The whole part -/

/-- The BJ-464. `pending` is the model's queue of commands waiting; everything else is the part's own. -/
structure State where
  pending   : List Instr
  /-- RESET_N is low (R22). -/
  resetLow  : Bool
  cb        : BitVec 4
  master    : MasterNo
  backplane : Backplane
  port      : Option Granted
  noticeReq : OwnReq
  chainReq  : OwnReq
  planReq   : OwnReq
  plan      : Plan
  transport : Transport
  transit   : Transit
  stations  : Vector Station 4
  pockets   : Vector Pocket 64
  sweep     : Sweep
  chain     : Chain
  retire    : List Retired
  cmd       : CommandUnit
  notice    : NoticeUnit
deriving DecidableEq, Repr

/-- Why the part would stop: no step of the BJ-464 stops it (every error is an answer, a flag, a notice or a state of a block), so there is no fault. -/
inductive Fault where
deriving DecidableEq, Repr

/-- Why the model gives a command no meaning. -/
inductive Refusal where
  /-- Raised by exec's arm of a command without a meaning; safe. No arm is such an arm. -/
  | notModelled (mnemonic : String)
deriving DecidableEq, Repr

/-! ### Reset values -/

/-- An own requester after reset (R23). -/
def OwnReq.reset : OwnReq := ⟨none, 0⟩

/-- The plan loader after reset (R33). -/
def Plan.reset : Plan where
  state := .invalid
  load := none
  layout := none
  rules := []
  planId := 0
  defaultPocket := 0
  noReadPocket := 0
  minGrade := 0
  missLimit := 15

/-- The transport monitor after reset (R70). -/
def Transport.reset : Transport where
  position := 0
  line := .stopped
  stall := none
  feedHold := true
  occupancy := false

/-- The transit list after reset (R70). -/
def Transit.reset : Transit := ⟨[], .waiting, none, none⟩

/-- A station context after reset (R72). -/
def Station.reset : Station where
  framing := .off
  expectation := .expected
  assembly := .seek
  misses := 0
  faultRun := 0
  lastTag := none
  rejects := 0

/-- A pocket after reset, but for pocket 0 (R125). -/
def Pocket.reset : Pocket where
  capacity := none
  threshold := 0
  partner := none
  state := .disabled
  fill := 0
  inFlight := 0
  batch := 0

/-- Pocket 0 after reset (R125). -/
def Pocket.resetReject : Pocket := { Pocket.reset with state := .opened }

/-- The chain engine after reset (R144, R145). Its held descriptor words have no stated reset value: 0, DESIGN CHOICE (log 2). -/
def Chain.reset : Chain where
  state := .off
  mode := .hold
  descAddr := 0
  control := 0
  next := 0
  area := 0
  count := 0
  work := .none
  pendingFlush := false
  stopAfter := false
  fault := .none
  base := 0
  last := 0
  lastWritten := false

/-- The command unit after reset (R158, R159). -/
def CommandUnit.reset : CommandUnit := ⟨false, ⟨0, .none, false, none, 0⟩, 0⟩

/-- The notice unit after reset (R161, R162, R164, R168, R170). -/
def NoticeUnit.reset : NoticeUnit where
  mask := 0xFF
  fifo := []
  lostCount := 0
  lost := false
  memory := false
  guard := false
  badIndex := false
  ringFault := false
  producer := 0
  consumer := 0
  writing := none
  mode := .level
  armed := true
  attn := false

/-- Every block at its reset value, under the straps given, with nothing waiting and nothing at the ports. -/
def State.resetWith (cb : BitVec 4) (cm : MasterNo) : State where
  pending := []
  resetLow := false
  cb := cb
  master := cm
  backplane := ⟨none, none⟩
  port := none
  noticeReq := .reset
  chainReq := .reset
  planReq := .reset
  plan := .reset
  transport := .reset
  transit := .reset
  stations := Vector.replicate 4 .reset
  pockets := (Vector.replicate 64 Pocket.reset).set 0 Pocket.resetReject
  sweep := .idle
  chain := .reset
  retire := []
  cmd := .reset
  notice := .reset

/-- The machine right after the release of reset (R23), sampled with the straps of Config (log 1). -/
def State.reset : State := State.resetWith Config.resetCB Config.resetCM

end Sys2Proof.Machine
end

