-- ==== Sys2Proof/Machine/Codes.lean ====
section
/-! DEFINITION. The codes of chapter 10: one code for each value of each enumerated field (R172; 10.1, 10.3, 10.6, 10.7). -/

namespace Sys2Proof.Machine

/-! ### Shared encodings (10.1) -/

def Cause.code : Cause → Nat
  | .none => 0
  | .rule => 1
  | .default => 2
  | .noRead => 3
  | .noPlan => 4
  | .doubleFeed => 5
  | .gap => 6
  | .conflict => 7
  | .intendedFull => 8
  | .intendedClosed => 9
  | .lateDecision => 10

def PocketState.code : PocketState → Nat
  | .disabled => 0
  | .opened => 1
  | .draining _ => 2
  | .closed => 3

/-- The drain-target bit of the pocket status word: zero unless DRAINING (10.3). -/
def PocketState.targetCode : PocketState → Nat
  | .draining .disabled => 1
  | .draining .closed | .disabled | .opened | .closed => 0

def LineState.code : LineState → Nat
  | .stopped => 0
  | .running => 1
  | .stalled => 2

def PlanState.code : PlanState → Nat
  | .invalid => 0
  | .loading => 1
  | .valid => 2

def Framing.code : Framing → Nat
  | .off => 0
  | .hunt => 1
  | .locked => 2

def Expectation.code : Expectation → Nat
  | .expected => 0
  | .degraded => 1

def ChainState.code : ChainState → Nat
  | .off => 0
  | .fetch => 1
  | .filling => 2
  | .held => 3
  | .fault => 4

def LengthClass.code : LengthClass → Nat
  | .short => 0
  | .normal => 1
  | .long => 2

/-- A pocket index in a record: 0xFF for NONE (10.1). -/
def pocketCode : Option PocketIx → Nat
  | some p => p.val
  | none => 0xFF

/-! ### Status block and commands (10.3) -/

def ResultCode.code : ResultCode → Nat
  | .ok => 0
  | .busy => 1
  | .badCommand => 2
  | .badArg => 3
  | .badState => 4
  | .seqError => 5
  | .noPlan => 6
  | .loadFailed => 7
  | .none => 0xF

def LoadCause.code : LoadCause → Nat
  | .crc => 1
  | .sequence => 2
  | .header => 3
  | .pocketRecord => 4
  | .ruleRecord => 5
  | .layoutLocked => 6
  | .memory => 7
  | .aborted => 8

/-- The load cause field: 0 for any result other than LOAD_FAILED (10.3). -/
def loadCauseCode : Option LoadCause → Nat
  | some c => c.code
  | none => 0

def ChainFault.code : ChainFault → Nat
  | .none => 0
  | .align => 4
  | .empty => 5
  | .memory => 6

/-! ### Chain formats (10.6) -/

def EndCause.code : EndCause → Nat
  | .full => 1
  | .flush => 2
  | .batch => 3
  | .stop => 4
  | .empty => 5
  | .align => 6

def DispositionOutcome.code : DispositionOutcome → Nat
  | .dispatched => 0
  | .lateDecision => 1
  | .lost => 2
  | .purged => 3

/-! ### Plan image (10.5) -/

/-- The fields a HEADER failure names (R27, R29). -/
inductive HeaderField where
  | magic
  | version
  | pocketCount
  | inductionRing
  | gateWindow
  | station (st : StationIx)
  | noticeRing
  | distances
  | stallTimeout
  | masters
  | extent
  | overlap
  | reserved
  | ruleCount
  | defaultPocket
  | noReadPocket
  | minGrade
  | missLimit
  | attnMode
  | paramReserved
deriving DecidableEq, Repr

def HeaderField.code : HeaderField → Nat
  | .magic => 1
  | .version => 2
  | .pocketCount => 3
  | .inductionRing => 4
  | .gateWindow => 5
  | .station st => 6 + st.val
  | .noticeRing => 10
  | .distances => 11
  | .stallTimeout => 12
  | .masters => 13
  | .extent => 14
  | .overlap => 15
  | .reserved => 16
  | .ruleCount => 17
  | .defaultPocket => 18
  | .noReadPocket => 19
  | .minGrade => 20
  | .missLimit => 21
  | .attnMode => 22
  | .paramReserved => 23

/-! ### Notices (10.1, 10.7) -/

/-- Notice classes (10.1); the code is also the mask bit. -/
inductive NoticeClass where
  | command
  | plan
  | line
  | pocket
  | station
  | letter
  | guard
  | chain
deriving DecidableEq, Repr

def NoticeClass.code : NoticeClass → Nat
  | .command => 0
  | .plan => 1
  | .line => 2
  | .pocket => 3
  | .station => 4
  | .letter => 5
  | .guard => 6
  | .chain => 7

/-- The class of each kind (R161). -/
def NoticeKind.class : NoticeKind → NoticeClass
  | .cmdAck => .command
  | .ringFault => .plan
  | .lineState | .feedHold => .line
  | .pocketNearFull | .pocketFull | .pocketClosed | .sweepSkip => .pocket
  | .stationState | .stationDegraded | .recordReject => .station
  | .untrackedEntry | .inductionFraming | .untrackedDispatch | .letterLost => .letter
  | .writeBlocked => .guard
  | .chainState | .chainDescDone => .chain

def NoticeKind.code : NoticeKind → Nat
  | .cmdAck => 0x01
  | .ringFault => 0x02
  | .lineState => 0x03
  | .feedHold => 0x04
  | .pocketNearFull => 0x05
  | .pocketFull => 0x06
  | .pocketClosed => 0x07
  | .sweepSkip => 0x08
  | .stationState => 0x09
  | .stationDegraded => 0x0A
  | .recordReject => 0x0B
  | .untrackedEntry => 0x0C
  | .inductionFraming => 0x0D
  | .untrackedDispatch => 0x0E
  | .letterLost => 0x0F
  | .writeBlocked => 0x10
  | .chainState => 0x11
  | .chainDescDone => 0x12

/-- Why the line state changed (R53). -/
inductive LineCause where
  | start
  | stop
  | stall
  | motion
deriving DecidableEq, Repr

def LineCause.code : LineCause → BitVec 4
  | .start => 1
  | .stop => 2
  | .stall => 3
  | .motion => 4

/-- Why a station's framing or expectation changed (R81). -/
inductive StationCause where
  | lock
  | align
  | faultRun
  | enable
  | disable
  | restart
deriving DecidableEq, Repr

def StationCause.code : StationCause → BitVec 4
  | .lock => 1
  | .align => 2
  | .faultRun => 3
  | .enable => 4
  | .disable => 5
  | .restart => 6

/-- Why a decode record was rejected (R75, R76). -/
inductive RejectCause where
  | align
  | crc
  | badRecord
  | stray
  | order
deriving DecidableEq, Repr

def RejectCause.code : RejectCause → BitVec 4
  | .align => 1
  | .crc => 2
  | .badRecord => 3
  | .stray => 4
  | .order => 5

/-- Why an entry was refused (R60). -/
inductive EntryRefusal where
  | stopped
  | badEntry
  | full
  | tagOrder
  | duplicate
deriving DecidableEq, Repr

def EntryRefusal.code : EntryRefusal → BitVec 4
  | .stopped => 1
  | .badEntry => 2
  | .full => 3
  | .tagOrder => 4
  | .duplicate => 5

/-- How an induction ring write broke the sequence (R58). -/
inductive FramingBreak where
  | outOfSequence
  | partialWrite
deriving DecidableEq, Repr

def FramingBreak.code : FramingBreak → BitVec 4
  | .outOfSequence => 1
  | .partialWrite => 2

/-- The region that refused a write (R10). -/
inductive BlockCause where
  | controlWord
  | statusOverlay
  | pocketOverlay
  | inductionRing
  | stationRing (st : StationIx)
  | gateWindow
  | noticeRing
  | planImage
deriving DecidableEq, Repr

def BlockCause.code : BlockCause → BitVec 4
  | .controlWord => 1
  | .statusOverlay => 2
  | .pocketOverlay => 3
  | .inductionRing => 4
  | .stationRing _ => 5
  | .gateWindow => 6
  | .noticeRing => 7
  | .planImage => 8

/-- The station index a WRITE_BLOCKED carries in argument bits 9:8 (R10, 10.7). -/
def BlockCause.stationBits : BlockCause → Nat
  | .stationRing st => st.val
  | .controlWord | .statusOverlay | .pocketOverlay | .inductionRing | .gateWindow | .noticeRing
  | .planImage => 0

/-- Why the chain state changed to HELD, FAULT or OFF (R145). -/
inductive ChainCause where
  | hold
  | lastAddress
  | stillHeld
  | align
  | empty
  | memory
  | stop
deriving DecidableEq, Repr

def ChainCause.code : ChainCause → BitVec 4
  | .hold => 1
  | .lastAddress => 2
  | .stillHeld => 3
  | .align => 4
  | .empty => 5
  | .memory => 6
  | .stop => 7

/-- The cause a chain FAULT is reported with (R145). -/
def ChainFault.cause : ChainFault → ChainCause
  | .align => .align
  | .empty => .empty
  | .memory | .none => .memory

/-- A letter's state as LETTER_LOST carries it (10.7): AWAIT_PLAN 2, DECIDED 3. A lost letter is never COLLECTING (R48): its code 1 is DEDUCED, not the table's (log 15). -/
def LetterState.lostCode : LetterState → BitVec 4
  | .collecting => 1
  | .awaitPlan => 2
  | .decided _ => 3

end Sys2Proof.Machine
end

