-- ==== Sys2Proof/Machine/Operands.lean ====
section
/-! DEFINITION. The words and records the BJ-464 takes, field by field (R172, R174; chapter 10): entry records, decode records, account codes, descriptors, and the blocks of a plan image; and the comparisons of tags and positions (R47, R59). -/

namespace Sys2Proof.Machine

/-! ### Tags, slots and positions -/

/-- Tag `a` is older than tag `b` (R59). -/
def tagOlder (a b : Tag) : Bool :=
  let d := (b - a).toNat
  decide (1 ≤ d) && decide (d ≤ 32767)

/-- The slot of a tag: its low eight bits (00, 5.2). -/
def slotOf (t : Tag) : BitVec 8 := t.extractLsb' 0 8

/-- Position `p` has been reached at count `counter` (R47). -/
def positionReached (counter p : Position) : Bool := decide ((counter - p).toNat < 2 ^ 23)

/-- A position `distance` pulses after `p`, on the 24-bit counter. -/
def positionAfter (p : Position) (distance : Nat) : Position := p + BitVec.ofNat 24 distance

/-! ### Account codes (00, 5.5; 10.1) -/

/-- Digit `n` of a key, counted from 0 at the left. -/
def keyDigit (key : AccountKey) (n : Nat) : Nat := (key.extractLsb' (4 * n) 4).toNat

/-- The number that `len` digits from digit `first` on spell. -/
def keyNumber (key : AccountKey) (first len : Nat) : Nat :=
  (List.range len).foldl (fun acc i => 10 * acc + keyDigit key (first + i)) 0

/-- The field of a key that a rule's selector names (R32); ANY names none. -/
def keyField (key : AccountKey) : FieldSelector → Option Nat
  | .any => none
  | .district => some (keyNumber key 0 2)
  | .cycle => some (keyNumber key 2 2)
  | .account => some (keyNumber key 4 9)
  | .mailBatch => some (keyNumber key 13 4)

/-- The weighted digit sum: odd positions by 3, even by 1, counted from 1 at the left (00, 5.5). -/
def keyWeightedSum (key : AccountKey) : Nat :=
  (List.range 17).foldl (fun acc i => acc + (if i % 2 = 0 then 3 else 1) * keyDigit key i) 0

/-- The check digit of a key (00, 5.5; R83). -/
def keyCheckDigit (key : AccountKey) : Nat := (10 - keyWeightedSum key % 10) % 10

/-- Every one of the 18 digits lies in 0 to 9, and the check digit holds (R82, R83). -/
def accountCodeGood (key : AccountKey) (check : BitVec 4) : Bool :=
  (List.range 17).all (fun i => decide (keyDigit key i ≤ 9)) && decide (check.toNat ≤ 9) &&
    decide (check.toNat = keyCheckDigit key)

/-! ### Entry records (10.4, R60) -/

def lengthClassOf : Nat → Option LengthClass
  | 0 => some .short
  | 1 => some .normal
  | 2 => some .long
  | _ => none

/-- A well-formed entry record (R60, check 2). -/
structure Entry where
  tag         : Tag
  lengthClass : LengthClass
  double      : Bool
deriving DecidableEq, Repr

/-- The tag of an entry record's second word. -/
def entryTag (second : Word) : Tag := second.extractLsb' 0 16

/-- The entry of two words; none where a reserved field is not zero or the length class is unassigned (R60, R174). -/
def entryOf (first second : Word) : Option Entry :=
  if bitsAt first 3 29 = 0 ∧ bitsAt second 16 16 = 0 then
    (lengthClassOf (bitsAt first 0 2)).map fun c => ⟨entryTag second, c, bitAt first 2⟩
  else none

/-! ### Decode records (10.4, R76, R77) -/

/-- Word `k` of a record; 0 beyond its end. -/
def recordWord (ws : List Word) (k : Nat) : Word := ws.getD k 0#32

def recordTag (ws : List Word) : Tag := (recordWord ws 0).extractLsb' 0 16
def recordStation (ws : List Word) : Nat := bitsAt (recordWord ws 0) 16 2
def recordKind (ws : List Word) : Nat := bitsAt (recordWord ws 0) 18 3
def recordGrade (ws : List Word) : Nat := bitsAt (recordWord ws 0) 21 2
def recordLast (ws : List Word) : Bool := bitAt (recordWord ws 0) 23

/-- The CRC over words 0 to 6 equals the stored CRC (R76). -/
def recordCrcGood (ws : List Word) : Bool :=
  crc16 (wordsBytes (ws.take 7)) == (recordWord ws 7).extractLsb' 0 16

/-- The content of a record in ring `st` is malformed (R77). -/
def recordMalformed (st : StationIx) (ws : List Word) : Bool :=
  decide (recordStation ws ≠ st.val) || decide (3 < recordKind ws) ||
    decide (bitsAt (recordWord ws 0) 24 8 ≠ 0) || decide (bitsAt (recordWord ws 7) 16 16 ≠ 0) ||
    (decide (recordKind ws = 2) && !bitAt (recordWord ws 1) 0)

/-- The 17 data digits of an ACCOUNT payload, words 1 to 3 (10.1, 10.4). -/
def recordKey (ws : List Word) : AccountKey :=
  (recordWord ws 3).extractLsb' 0 4 ++ recordWord ws 2 ++ recordWord ws 1

/-- The check digit of an ACCOUNT payload (10.1). -/
def recordCheck (ws : List Word) : BitVec 4 := (recordWord ws 3).extractLsb' 4 4

/-- What the read of a record carries; a NOREAD record builds no read (R82). -/
def recordBody (ws : List Word) : Option ReadBody :=
  match recordKind ws with
  | 0 => some (.account (recordKey ws) (recordCheck ws))
  | 1 => some (.endorse ((recordWord ws 1).extractLsb' 0 8))
  | 2 => some .forward
  | _ => none

/-- A read's content is in range, its grade apart (R82). -/
def ReadBody.inRange : ReadBody → Bool
  | .account key check => accountCodeGood key check
  | .endorse reason => decide (1 ≤ reason.toNat) && decide (reason.toNat ≤ 15)
  | .forward => true

/-- The read of a record, its valid flag computed against a minimum grade (R82). -/
def recordRead (st : StationIx) (minGrade : Nat) (ws : List Word) : Option Read :=
  (recordBody ws).map fun body =>
    ⟨st, body, recordGrade ws, decide (minGrade ≤ recordGrade ws) && body.inRange⟩

/-! ### Descriptors (10.6, R143) -/

def descCapacity (control : Word) : Nat := bitsAt control 0 10
def descHold (control : Word) : Bool := bitAt control 16
def descNotify (control : Word) : Bool := bitAt control 17
def descBatchClose (control : Word) : Bool := bitAt control 18

/-! ### Layout block (10.5, R27) -/

def Layout.magic (l : Layout) : Nat := le32At l.payload 0
def Layout.version (l : Layout) : Nat := byteAt l.payload 4
def Layout.pocketCount (l : Layout) : Nat := byteAt l.payload 5
def Layout.inductionMaster (l : Layout) : Nat := byteAt l.payload 6
def Layout.gateMaster (l : Layout) : Nat := byteAt l.payload 7
def Layout.inductionBase (l : Layout) : Nat := le32At l.payload 8
def Layout.inductionCount (l : Layout) : Nat := le16At l.payload 12
def Layout.stallTimeout (l : Layout) : Nat := byteAt l.payload 14
def Layout.gateBase (l : Layout) : Nat := le32At l.payload 16
def Layout.stationBase (l : Layout) (st : StationIx) : Nat := le32At l.payload (20 + 6 * st.val)

/-- The 16-bit field of a station in the layout block. -/
def Layout.stationField (l : Layout) (st : StationIx) : Nat := le16At l.payload (24 + 6 * st.val)
def Layout.stationCount (l : Layout) (st : StationIx) : Nat := l.stationField st % 512
def Layout.stationMaster (l : Layout) (st : StationIx) : Nat := l.stationField st / 512 % 8
def Layout.stationReserved (l : Layout) (st : StationIx) : Nat := l.stationField st / 4096 % 8
def Layout.stationPresent (l : Layout) (st : StationIx) : Bool := l.stationField st / 32768 == 1
def Layout.noticeBase (l : Layout) : Nat := le32At l.payload 44
def Layout.noticeSize (l : Layout) : Nat := le16At l.payload 48
def Layout.decideDistance (l : Layout) : Nat := le16At l.payload 50
def Layout.lostDistance (l : Layout) : Nat := le16At l.payload 52
def Layout.minGap (l : Layout) : Nat := le16At l.payload 54

/-- The four stations, in ascending order. -/
def allStations : List StationIx := [0, 1, 2, 3]

/-- The window of the induction ring (R6). -/
def Layout.inductionWindow (l : Layout) : Window :=
  ⟨.inductionRing, l.inductionBase, 8 * l.inductionCount,
    some (BitVec.ofNat 3 l.inductionMaster)⟩

/-- The window of station `st`'s ring (R6). -/
def Layout.stationWindow (l : Layout) (st : StationIx) : Window :=
  ⟨.stationRing st, l.stationBase st, 32 * l.stationCount st,
    some (BitVec.ofNat 3 (l.stationMaster st))⟩

/-- The gate window, 256 words (R6). -/
def Layout.gateWindow (l : Layout) : Window := ⟨.gateWindow, l.gateBase, 1024, none⟩

/-- The window of the notice ring (R6). -/
def Layout.noticeWindow (l : Layout) : Window :=
  ⟨.noticeRing, l.noticeBase, 16 * l.noticeSize, none⟩

/-- The windows of a layout: an absent station has none (R6). -/
def Layout.windows (l : Layout) : List Window :=
  [l.inductionWindow] ++ (allStations.filter l.stationPresent).map l.stationWindow ++
    [l.gateWindow, l.noticeWindow]

def Window.contains (w : Window) (addr : Nat) : Bool :=
  decide (w.base ≤ addr) && decide (addr < w.base + w.length)

def Window.disjoint (a b : Window) : Bool :=
  decide (a.base + a.length ≤ b.base) || decide (b.base + b.length ≤ a.base)

/-- No two windows of a list share an address. -/
def windowsDisjoint : List Window → Bool
  | [] => true
  | w :: ws => ws.all (w.disjoint ·) && windowsDisjoint ws

/-- The control area of a strap CB: 4 KiB at CB times 256 MiB (R3). -/
def controlBase (cb : BitVec 4) : Nat := cb.toNat * 0x10000000

/-- The window clears the control area (R7). -/
def Window.clearsControl (w : Window) (cb : BitVec 4) : Bool :=
  decide (w.base + w.length ≤ controlBase cb) || decide (controlBase cb + 0x1000 ≤ w.base)

/-- The masters that must be different, the controller master among them (R27, check 13). -/
def Layout.masters (l : Layout) (cm : MasterNo) : List Nat :=
  [l.inductionMaster, l.gateMaster] ++ (allStations.filter l.stationPresent).map l.stationMaster ++
    [cm.toNat]

/-- Check 6 to 9 of R27 for one station. -/
def Layout.stationGood (l : Layout) (st : StationIx) : Bool :=
  if l.stationPresent st then
    decide (16 ≤ l.stationCount st) && decide (l.stationCount st ≤ 256) &&
      decide (l.stationBase st % 32 = 0) && decide (l.stationMaster st ≤ 7)
  else
    decide (l.stationMaster st = 0) && decide (l.stationBase st = 0) &&
      decide (l.stationCount st = 0)

/-- The conditions of R27 in the order of its table. The reserved bits of a station field are taken under RESERVED, DEDUCED from R174 (log 10). -/
def Layout.checks (l : Layout) (cb : BitVec 4) (cm : MasterNo) : List (HeaderField × Bool) :=
  [ (.magic, decide (l.magic = Config.planMagic)),
    (.version, decide (l.version = 1)),
    (.pocketCount, decide (1 ≤ l.pocketCount) && decide (l.pocketCount ≤ 64)),
    (.inductionRing, decide (16 ≤ l.inductionCount) && decide (l.inductionCount ≤ 1024) &&
      decide (l.inductionBase % 8 = 0) && decide (l.inductionMaster ≤ 7)),
    (.gateWindow, decide (l.gateBase % 4 = 0) && decide (l.gateMaster ≤ 7)) ] ++
  allStations.map (fun st => (HeaderField.station st, l.stationGood st)) ++
  [ (.noticeRing, decide (32 ≤ l.noticeSize) && decide (l.noticeSize ≤ 1024) &&
      decide (l.noticeSize % 32 = 0) && decide (l.noticeBase % 16 = 0)),
    (.distances, decide (1 ≤ l.decideDistance) && decide (l.decideDistance < l.lostDistance)),
    (.stallTimeout, decide (1 ≤ l.stallTimeout)),
    (.masters, decide (l.masters cm).Nodup),
    (.extent, l.windows.all (fun w => decide (w.base + w.length ≤ 2 ^ 32))),
    (.overlap, windowsDisjoint l.windows && l.windows.all (·.clearsControl cb)),
    (.reserved, zeroBytes l.payload 15 1 && zeroBytes l.payload 56 4 &&
      allStations.all (fun st => decide (l.stationReserved st = 0))) ]

/-- The first condition that fails (R27, R29). -/
def firstFailure (checks : List (HeaderField × Bool)) : Option HeaderField :=
  (checks.find? (fun c => !c.2)).map (·.1)

/-! ### Parameter block (10.5, R29) -/

/-- The conditions of R29 in the order of its table, for pocket count `P`. -/
def paramChecks (bs : List Byte) (P : Nat) : List (HeaderField × Bool) :=
  [ (.ruleCount, decide (le16At bs 4 ≤ 256)),
    (.defaultPocket, decide (byteAt bs 6 < P)),
    (.noReadPocket, decide (byteAt bs 7 < P)),
    (.minGrade, decide (byteAt bs 8 ≤ 3)),
    (.missLimit, decide (1 ≤ byteAt bs 9) && decide (byteAt bs 9 ≤ 15)),
    (.attnMode, decide (byteAt bs 11 ≤ 1)),
    (.paramReserved, zeroBytes bs 12 48) ]

/-- The parameters of a block 1 that passes R29. -/
def paramsOf (bs : List Byte) : Params where
  planId := BitVec.ofNat 32 (le32At bs 0)
  ruleCount := le16At bs 4
  defaultPocket := Fin.ofNat 64 (byteAt bs 6)
  noReadPocket := Fin.ofNat 64 (byteAt bs 7)
  minGrade := byteAt bs 8
  missLimit := byteAt bs 9
  noticeMask := BitVec.ofNat 8 (byteAt bs 10)
  attnMode := if byteAt bs 11 = 0 then .level else .first

/-! ### Pocket records (10.5, R30) -/

/-- The bytes of the pocket record at position `i` of a pocket block. -/
def pocketRecordBytes (bs : List Byte) (i : Nat) : List Byte := (bs.drop (8 * i)).take 8

/-- The record of pocket `p` meets R30, for pocket count `P`. -/
def pocketRecordGood (r : List Byte) (p P : Nat) : Bool :=
  let capacity := le16At r 0
  let threshold := le16At r 2
  let partner := byteAt r 4
  decide (1 ≤ capacity) && decide (capacity ≤ 4095) && decide (threshold ≤ capacity) &&
    (decide (partner = 0) || (decide (partner < P) && decide (partner ≠ p))) &&
    decide (byteAt r 5 ≤ 1) && zeroBytes r 6 2 &&
    (decide (p ≠ 0) || (decide (partner = 0) && decide (byteAt r 5 = 0)))

/-- A pocket record; partner byte 0 means none (10.5). -/
def pocketRecordOf (r : List Byte) : PocketRecord where
  capacity := le16At r 0
  threshold := le16At r 2
  partner := if byteAt r 4 = 0 then none else some (Fin.ofNat 64 (byteAt r 4))
  opens := decide (byteAt r 5 = 0)

/-- The index that a failure of pocket block `j` carries, its seven positions taken in order and its bytes 56 to 59 last (R30). -/
def pocketBlockFailure (bs : List Byte) (j P : Nat) : Option Nat :=
  match (List.range 7).find? (fun i =>
      let p := 7 * j + i
      let r := pocketRecordBytes bs i
      if p < P then !pocketRecordGood r p P else !zeroBytes r 0 8) with
  | some i => some (7 * j + i)
  | none => if zeroBytes bs 56 4 then none else some (128 + j)

/-- The records of pocket block `j`, for pocket count `P`. -/
def pocketBlockRecords (bs : List Byte) (j P : Nat) : List PocketRecord :=
  ((List.range 7).filter (fun i => decide (7 * j + i < P))).map
    fun i => pocketRecordOf (pocketRecordBytes bs i)

/-! ### Rules (10.5, R31, R32) -/

def selectorOf : Nat → Option FieldSelector
  | 0 => some .any
  | 1 => some .district
  | 2 => some .cycle
  | 3 => some .account
  | 4 => some .mailBatch
  | _ => none

def forwardOf : Nat → Option ForwardCondition
  | 0 => some .any
  | 1 => some .present
  | 2 => some .absent
  | _ => none

/-- The bytes of the rule at position `i` of a rule block. -/
def ruleBytes (bs : List Byte) (i : Nat) : List Byte := (bs.drop (12 * i)).take 12

/-- The rule of a rule record that meets R31 for pocket count `P`; none for one that does not. -/
def ruleOf (r : List Byte) (P : Nat) : Option Rule :=
  let b := byteAt r 0
  if b / 8 % 2 = 0 ∧ b / 64 = 0 ∧ byteAt r 1 < P ∧ le32At r 4 ≤ le32At r 8 then
    match selectorOf (b % 8), forwardOf (b / 16 % 4) with
    | some sel, some fwd =>
      some ⟨sel, fwd, Fin.ofNat 64 (byteAt r 1), BitVec.ofNat 16 (le16At r 2), le32At r 4,
        le32At r 8⟩
    | some _, none | none, some _ | none, none => none
  else none

/-- The index that a failure of rule block `j` carries (R31), for rule count `N`. -/
def ruleBlockFailure (bs : List Byte) (j P N : Nat) : Option Nat :=
  ((List.range 5).find? (fun i =>
      let r := ruleBytes bs i
      if 5 * j + i < N then (ruleOf r P).isNone else !zeroBytes r 0 12)).map (5 * j + ·)

/-- The rules of rule block `j`. -/
def ruleBlockRules (bs : List Byte) (j P N : Nat) : List Rule :=
  ((List.range 5).filter (fun i => decide (5 * j + i < N))).filterMap
    fun i => ruleOf (ruleBytes bs i) P

/-- A rule matches a letter of this reason class, forward-present flag and account key (R32). -/
def Rule.matches (r : Rule) (reason : BitVec 4) (fwd : Bool) (key : Option AccountKey) : Bool :=
  r.reasons.getLsbD reason.toNat &&
    (match r.forward with
     | .any => true
     | .present => fwd
     | .absent => !fwd) &&
    (match r.selector with
     | .any => true
     | .district | .cycle | .account | .mailBatch =>
       match key.bind (fun k => keyField k r.selector) with
       | some v => decide (r.low ≤ v) && decide (v ≤ r.high)
       | none => false)

/-! ### The plan image as a whole (R24) -/

/-- Pocket blocks of an image (R24). -/
def pocketBlocks (P : Nat) : Nat := (P + 6) / 7

/-- Rule blocks of an image (R24). -/
def ruleBlocks (N : Nat) : Nat := (N + 4) / 5

/-- Blocks of an image (R24). -/
def imageBlocks (P N : Nat) : Nat := 2 + pocketBlocks P + ruleBlocks N

end Sys2Proof.Machine
end

