-- ==== Sys2Proof/Machine/Flags.lean ====
section
/-! DEFINITION. The flags, levels and counts the BJ-464 computes: saturating counts (00, 5.7), the occupancy latch (R57), the conditions of FEED_HOLD (R56), the level of ATTN (R167) and the room in the notice ring (R163). -/

namespace Sys2Proof.Machine

/-- One more, staying at the greatest value (00, 5.7). -/
def satSucc (limit n : Nat) : Nat := if n < limit then n + 1 else n

/-- The pocket count P: 0 while no layout is in force (R33). -/
def Plan.pocketCount (p : Plan) : Nat :=
  match p.layout with
  | some l => l.pocketCount
  | none => 0

/-- The notice ring's size: taken as 0 before any layout (R164). -/
def Plan.ringSize (p : Plan) : Nat :=
  match p.layout with
  | some l => l.noticeSize
  | none => 0

/-- The transit count (R63). -/
def State.transitCount (s : State) : Nat := s.transit.letters.length

/-- The retire count (R141). -/
def State.retireCount (s : State) : Nat := s.retire.length

/-- The sum that the FULL check and the occupancy latch watch (R57, R60). -/
def State.occupancySum (s : State) : Nat := s.transitCount + s.retireCount

/-- The occupancy latch after an event that changes the sum (R57). -/
def nextOccupancy (latch : Bool) (sum : Nat) : Bool :=
  if Config.occupancySet ≤ sum then true
  else if sum ≤ Config.occupancyClear then false
  else latch

/-- Condition LINE of FEED_HOLD (R56). -/
def State.holdLine (s : State) : Bool := s.transport.line != .running

/-- Condition REJECT_FULL of FEED_HOLD: a layout is in force and pocket 0's fill is at or above its capacity (R56). -/
def State.holdReject (s : State) : Bool :=
  match s.plan.layout, s.pockets[0].capacity with
  | some _, some c => decide (c ≤ s.pockets[0].fill)
  | some _, none | none, some _ | none, none => false

/-- The level of FEED_HOLD: asserted while one or more conditions hold (R56). -/
def State.holdLevel (s : State) : Bool :=
  s.holdLine || s.transport.occupancy || s.holdReject

/-- The set of conditions, as the FEED_HOLD notice and status word 1 carry it: LINE in bit 0, OCCUPANCY in bit 1, REJECT_FULL in bit 2 (10.3, 10.7). -/
def State.holdConditions (s : State) : Nat :=
  s.holdLine.toNat + 2 * s.transport.occupancy.toNat + 4 * s.holdReject.toNat

/-- The level ATTN takes in LEVEL mode: a ring exists and its indices differ (R167). -/
def State.levelAttn (s : State) : Bool :=
  s.plan.layout.isSome && s.notice.producer != s.notice.consumer

/-- The notice ring has room: it is full when the index after the producer index is the consumer index (R163). -/
def State.ringRoom (s : State) : Bool :=
  (s.notice.producer + 1) % s.plan.ringSize != s.notice.consumer

/-- The stall monitor's conditions: the line is RUNNING and a letter is in the list (R51). -/
def State.stallWatched (s : State) : Bool :=
  s.transport.line == .running && !s.transit.letters.isEmpty

/-- REFCLK edges of the stall timeout of the layout in force (R51). -/
def State.stallEdges (s : State) : Nat :=
  match s.plan.layout with
  | some l => Config.stallUnit * l.stallTimeout
  | none => 0

/-- The bit of a notice's class is set in the mask (R161). -/
def noticeUnmasked (mask : BitVec 8) (k : NoticeKind) : Bool := mask.getLsbD k.class.code

end Sys2Proof.Machine
end

