-- ==== Sys2Proof/Machine/Formats.lean ====
section
/-! DEFINITION. The words the BJ-464 answers and writes, built by the tables of chapter 10 (R172, R173, R175): gate words, pocket words, status words, completion words, disposition records and notice entries. -/

namespace Sys2Proof.Machine

/-! ### Gate word (10.4, R111) -/

/-- The fields of a gate word. -/
structure GateWord where
  valid      : Bool := false
  pocket     : Nat := 0
  cause      : Cause := .none
  viaPartner : Bool := false
  untracked  : Bool := false
  pending    : Bool := false
  await      : Bool := false
  empty      : Bool := false
  slot       : BitVec 8
deriving DecidableEq, Repr

def GateWord.word (g : GateWord) : Word :=
  field g.slot.toNat 0 ||| field g.pocket 8 ||| field g.cause.code 16 ||| flag g.viaPartner 24 |||
    flag g.untracked 25 ||| flag g.pending 26 ||| flag g.await 27 ||| flag g.empty 28 |||
    flag g.valid 31

/-- A DECIDED letter's decision word in slot `slot` (R111). -/
def decisionWord (d : Decision) (slot : BitVec 8) : GateWord :=
  { valid := true, pocket := d.final.val, cause := d.cause, viaPartner := d.viaPartner
    slot := slot }

/-! ### Pocket window words (10.3, R140) -/

def pocketStatusWord (p : Pocket) : Word :=
  field p.state.code 0 ||| field p.state.targetCode 2 ||| field p.inFlight 8 ||| field p.fill 16

def pocketBatchWord (p : Pocket) : Word :=
  field p.batch.toNat 0 ||| field (p.capacity.getD 0) 16

/-! ### Status block (10.3, R171) -/

/-- The ring state: NONE while no layout is in force, FAULT while faulted, RUNNING otherwise (R171). -/
def State.ringStateCode (s : State) : Nat :=
  if s.plan.layout.isNone then 0 else if s.notice.ringFault then 2 else 1

def stationWord (st : Station) : Word :=
  field st.framing.code 0 ||| field st.expectation.code 4 ||| field st.misses 8 |||
    field st.rejects 16

/-- The chain fault cause, shown while the state is FAULT (R145). -/
def Chain.shownFault (c : Chain) : Nat :=
  match c.state with
  | .fault => c.fault.code
  | .off | .fetch | .filling | .held => 0

/-- Status word `w` (10.3). Words 17 to 31 read as zero (R173). -/
def statusWord (s : State) (w : Nat) : Word :=
  match w with
  | 0 => Config.identity
  | 1 => field s.transport.line.code 0 ||| flag s.transport.feedHold 4 ||| flag s.notice.attn 5 |||
      field s.notice.mode.code 6 ||| field s.holdConditions 8 ||| field s.master.toNat 16
  | 2 => field s.plan.state.code 0 ||| flag s.cmd.executing 4 ||| field s.ringStateCode 8 |||
      field s.chain.state.code 16 ||| field s.chain.shownFault 20
  | 3 => s.plan.planId
  | 4 => field s.cmd.last.opcode.toNat 0 ||| field s.cmd.last.result.code 8 |||
      flag s.cmd.last.sweepCancelled 15 ||| field (loadCauseCode s.cmd.last.loadCause) 16
  | 5 => s.cmd.last.arg
  | 6 => field s.cmd.ackCount.toNat 0
  | 7 => s.chain.descAddr
  | 8 => field s.transitCount 0 ||| field s.retireCount 8
  | 9 => field s.transport.position.toNat 0
  | 10 => field s.notice.producer 0 ||| field s.notice.consumer 16
  | 11 => field s.notice.fifo.length 0 ||| field s.notice.mask.toNat 8
  | 12 => field s.notice.lostCount 0 ||| flag s.notice.lost 16 ||| flag s.notice.memory 17 |||
      flag s.notice.guard 18 ||| flag s.notice.badIndex 19
  | 13 => stationWord s.stations[0]
  | 14 => stationWord s.stations[1]
  | 15 => stationWord s.stations[2]
  | 16 => stationWord s.stations[3]
  | _ => 0#32

/-! ### Chain words (10.6, R143, R175) -/

/-- A completion word: COMPLETE set, ERR set for a refused descriptor (R143). -/
def completionWord (err : Bool) (e : EndCause) (count : Nat) : Word :=
  field count 0 ||| field e.code 16 ||| flag err 30 ||| flag true 31

/-- Bit s of the set, for each station s (10.6). -/
def reportedCode (r : Vector Bool 4) : Nat :=
  r[0].toNat + 2 * r[1].toNat + 4 * r[2].toNat + 8 * r[3].toNat

/-- Bits `lo` to `lo + len - 1` of a key that may be absent (R175). -/
def keyBits (key : Option AccountKey) (lo len : Nat) : Nat :=
  match key with
  | some k => (k.extractLsb' lo len).toNat
  | none => 0

/-- Word `k` of a disposition record (10.6). -/
def Disposition.word (d : Disposition) (k : Fin 8) : Word :=
  match k with
  | 0 => field d.tag.toNat 0 ||| field d.outcome.code 16 ||| field d.cause.code 20 |||
      flag d.viaPartner 24 ||| flag d.ruleIndex.isSome 25 ||| flag d.accountKey.isSome 26 |||
      flag d.forwardPresent 27 ||| flag d.overrun 28
  | 1 => field (pocketCode d.intended) 0 ||| field (pocketCode d.final) 8 |||
      field (d.ruleIndex.getD 0) 16 ||| field d.reasonClass.toNat 24
  | 2 => field d.batch.toNat 0 ||| field d.readsTaken 16 ||| field (reportedCode d.reported) 20 |||
      field d.lateReads 24 ||| field d.lengthClass.code 28 ||| flag d.double 30 ||| flag d.close 31
  | 3 => field d.entryPos.toNat 0
  | 4 => field d.leavePos.toNat 0
  | 5 => field (keyBits d.accountKey 0 32) 0
  | 6 => field (keyBits d.accountKey 32 32) 0
  | 7 => field (keyBits d.accountKey 64 4) 0

/-! ### Notice entry (10.7) -/

/-- Word `k` of a notice entry. -/
def Notice.word (n : Notice) (k : Fin 4) : Word :=
  match k with
  | 0 => field n.kind.code 0 ||| field n.kind.class.code 8 ||| field n.source.toNat 16 |||
      field n.result.toNat 24 ||| field n.cause.toNat 28
  | 1 => field n.arg16.toNat 0
  | 2 => n.arg32
  | 3 => field n.position.toNat 0

end Sys2Proof.Machine
end

