-- ==== Sys2Proof/Machine/Ops.lean ====
section
/-! DEFINITION. The operations every block shares: reading and writing a pocket or station record, presenting and withdrawing an own access (R18 to R20), raising a notice (R161, R163), evaluating FEED_HOLD, the occupancy latch and the stall monitor (R51, R56, R57), changing the line state (R53), and acknowledging a command (R159). -/

namespace Sys2Proof.Machine

/-! ### Indexed records -/

def State.pocket (s : State) (p : PocketIx) : Pocket := s.pockets[p]

def State.setPocket (s : State) (p : PocketIx) (x : Pocket) : State :=
  { s with pockets := s.pockets.set p.val x p.isLt }

def State.station (s : State) (st : StationIx) : Station := s.stations[st]

def State.setStation (s : State) (st : StationIx) (x : Station) : State :=
  { s with stations := s.stations.set st.val x st.isLt }

def State.setLetters (s : State) (ls : List Letter) : State :=
  { s with transit := { s.transit with letters := ls } }

/-- The first element that meets `p`, changed by `f`. -/
def modifyFirst {α : Type} (p : α → Bool) (f : α → α) : List α → List α
  | [] => []
  | x :: xs => if p x then f x :: xs else x :: modifyFirst p f xs

/-- The letter a tag lookup finds (R66). -/
def State.letterByTag (s : State) (t : Tag) : Option Letter :=
  s.transit.letters.find? (fun l => l.tag == t)

/-- The letter a slot lookup finds (R66). -/
def State.letterBySlot (s : State) (slot : BitVec 8) : Option Letter :=
  s.transit.letters.find? (fun l => slotOf l.tag == slot)

/-! ### Own accesses at the arbiter (R18 to R20) -/

def Job.requester : Job → Requester
  | .passthrough _ => .passthrough
  | .noticeWord => .notice
  | .chainDesc | .chainReread | .chainRecord | .chainCompletion => .chain
  | .planRead => .plan

/-- A word read (R18). -/
def ownRead (addr : Word) : MemAccess := ⟨addr, .read⟩

/-- A full-word write (R18). -/
def ownWrite (addr data : Word) : MemAccess := ⟨addr, .write data 0xF#4⟩

/-- A new own access starts with wait count 0 (R20). -/
def OwnReq.present (job : Job) (access : MemAccess) : OwnReq := ⟨some ⟨job, access⟩, 0⟩

def State.presentNotice (s : State) (access : MemAccess) : State :=
  { s with noticeReq := .present .noticeWord access }

def State.presentPlan (s : State) (access : MemAccess) : State :=
  { s with planReq := .present .planRead access }

/-- The memory port holds an access of this requester. -/
def State.atMemory (s : State) (r : Requester) : Bool :=
  match s.port with
  | some g => decide (g.job.requester = r)
  | none => false

/-- The chain engine presents an access, where memory has answered the previous one (R145). -/
def State.presentChain (s : State) (job : Job) (access : MemAccess) : State :=
  { s with chainReq := if s.atMemory .chain then s.chainReq else .present job access }

/-- A granted access of this requester is carried to its end at memory, its answer discarded (R19). -/
def Granted.abandonedBy (r : Requester) (g : Granted) : Granted :=
  if g.job.requester = r then { g with abandoned := true } else g

/-- The notice unit stops wanting its access (R19, R166). -/
def State.withdrawNotice (s : State) : State :=
  { s with noticeReq := .reset, port := s.port.map (Granted.abandonedBy .notice) }

/-- The chain engine stops wanting its access (R19, R154). -/
def State.withdrawChain (s : State) : State :=
  { s with chainReq := .reset, port := s.port.map (Granted.abandonedBy .chain) }

/-- The plan loader stops wanting its access (R19, R41). -/
def State.withdrawPlan (s : State) : State :=
  { s with planReq := .reset, port := s.port.map (Granted.abandonedBy .plan) }

/-! ### Raising a notice (R161, R163) -/

/-- The five conditions under which the head of the FIFO is written (R163). -/
def State.noticeDue (s : State) : Bool :=
  s.plan.layout.isSome && !s.notice.ringFault && s.ringRoom && !s.notice.fifo.isEmpty &&
    s.notice.writing.isNone

/-- The address of word `k` of ring entry `i` (R163). -/
def noticeWordAddr (l : Layout) (i : Nat) (k : Fin 4) : Word :=
  BitVec.ofNat 32 (l.noticeBase + 16 * i + 4 * k.val)

/-- Present word `k` of the head entry, for ring entry [producer index] (R163). -/
def presentNoticeWord (k : Fin 4) (s : State) : State :=
  match s.plan.layout, s.notice.fifo with
  | some l, n :: _ =>
    { s with notice := { s.notice with writing := some k } }.presentNotice
      (ownWrite (noticeWordAddr l s.notice.producer k) (n.word k))
  | some _, [] | none, _ => s

/-- Present word 0 of the head entry in the event that first makes the five conditions hold (R163). -/
def noticePump (s : State) : State :=
  if s.noticeDue then presentNoticeWord 0 s else s

/-- A notice joins the tail of the FIFO, or is dropped and counted when the FIFO is full (R161). -/
def enqueueNotice (n : Notice) (s : State) : State :=
  if s.notice.fifo.length < Config.maxFifo then
    noticePump { s with notice := { s.notice with fifo := s.notice.fifo ++ [n] } }
  else
    { s with notice := { s.notice with
        lostCount := satSucc Config.maxCount16 s.notice.lostCount, lost := true } }

/-- Raise a notice: nothing when its class is masked; otherwise it is queued with the position counter of the event (R161). -/
def raise (n : Notice) (s : State) : State :=
  if noticeUnmasked s.notice.mask n.kind then
    enqueueNotice { n with position := s.transport.position } s
  else s

/-- Set the MEMORY latched flag (R170). -/
def setMemoryFlag (s : State) : State := { s with notice := { s.notice with memory := true } }

/-! ### FEED_HOLD, the occupancy latch, the stall monitor and the line state -/

/-- The FEED_HOLD notice of the conditions as they stand (R56). -/
def State.feedHoldNotice (s : State) : Notice :=
  { kind := .feedHold, result := BitVec.ofNat 4 s.holdLevel.toNat
    arg16 := BitVec.ofNat 16 s.holdConditions }

/-- Evaluate FEED_HOLD: a change of its level raises a FEED_HOLD notice (R56). -/
def evalFeedHold (s : State) : State :=
  if s.holdLevel = s.transport.feedHold then s
  else
    raise s.feedHoldNotice { s with transport := { s.transport with feedHold := s.holdLevel } }

/-- Evaluate the occupancy latch, and FEED_HOLD with it (R56, R57). -/
def evalOccupancy (s : State) : State :=
  evalFeedHold { s with transport := { s.transport with
    occupancy := nextOccupancy s.transport.occupancy s.occupancySum } }

/-- The stall monitor restarts where its conditions hold, and is stopped where they do not (R51). -/
def restartStall (s : State) : State :=
  { s with transport := { s.transport with stall := if s.stallWatched then some 0 else none } }

/-- The departure of the last letter stops the stall monitor (R51, R118). -/
def stopStallIfEmpty (s : State) : State :=
  if s.transit.letters.isEmpty then { s with transport := { s.transport with stall := none } }
  else s

/-- The LINE_STATE notice of a change from `old` to `line` (R53). -/
def lineNotice (line old : LineState) (cause : LineCause) : Notice :=
  { kind := .lineState, result := BitVec.ofNat 4 line.code, cause := cause.code
    arg16 := BitVec.ofNat 16 old.code }

/-- Change the line state: one LINE_STATE notice, then FEED_HOLD (R53, R56). -/
def setLine (line : LineState) (cause : LineCause) (s : State) : State :=
  evalFeedHold
    (raise (lineNotice line s.transport.line cause)
      { s with transport := { s.transport with line := line } })

/-! ### Acknowledging a command (R139, R157, R159) -/

/-- The CMD_ACK notice of an acknowledgment (R159). -/
def ackNotice (r : CmdResult) : Notice :=
  { kind := .cmdAck, source := r.opcode, result := BitVec.ofNat 4 r.result.code
    arg16 := BitVec.ofNat 16 (32768 * r.sweepCancelled.toNat + loadCauseCode r.loadCause)
    arg32 := r.arg }

/-- The acknowledgment is recorded as the last command result, counted, and raised as a CMD_ACK (R159). -/
def acknowledge (r : CmdResult) (s : State) : State :=
  raise (ackNotice r)
    { s with cmd := { s.cmd with last := r, ackCount := s.cmd.ackCount + 1 } }

/-- A sweep is unfinished (R139). -/
def State.sweepOpen (s : State) : Bool := s.sweep != .idle

/-- A non-sweep command is taken with result OK: an unfinished sweep returns to IDLE and the acknowledgment carries SWEEP_CANCELLED (R139). -/
def ackTaken (c : Command) (arg : Word) (s : State) : State :=
  acknowledge ⟨c.opcode, .ok, s.sweepOpen, none, arg⟩ { s with sweep := .idle }

/-- A sweep command is taken with result OK. -/
def ackSweep (c : Command) (arg : Word) (s : State) : State :=
  acknowledge ⟨c.opcode, .ok, false, none, arg⟩ s

/-- A command is refused: the acknowledgment carries the written argument field (R159), and SWEEP_CANCELLED clear (R139). -/
def refuse (c : Command) (r : ResultCode) (s : State) : State :=
  acknowledge ⟨c.opcode, r, false, none, c.argument.setWidth 32⟩ s

/-- Check 4 of R157: in EXECUTING the command is refused with BUSY. Nothing is taken while RESET_N is low (R22). -/
def whenIdle (c : Command) (own : State → State) (s : State) : State :=
  if s.resetLow then s else if s.cmd.executing then refuse c .busy s else own s

end Sys2Proof.Machine
end

