-- ==== Sys2Proof/Machine/ChainEngine.lean ====
section
/-! DEFINITION. The disposition chain engine (spec/08_the_disposition_chain.md): the retire buffer, descriptors, the engine's work, and the meanings of the chain's rows. -/

namespace Sys2Proof.Machine

/-! ### State changes -/

/-- A change to HELD, FAULT or OFF raises a CHAIN_STATE notice (R145). -/
def setChainState (st : ChainState) (cause : ChainCause) (s : State) : State :=
  raise { kind := .chainState, result := BitVec.ofNat 4 st.code, cause := cause.code
          arg16 := BitVec.ofNat 16 s.chain.state.code, arg32 := s.chain.descAddr }
    { s with chain := { s.chain with state := st, work := .none } }

/-- The engine goes to FAULT; pending flush is cleared (R147, R151). Whether a set stop after completion survives is the part's own choice (log 9). -/
def chainFault (f : ChainFault) (s : State) : State :=
  setChainState .fault f.cause
    { s with chain := { s.chain with
        fault := f, pendingFlush := false
        stopAfter := s.chain.stopAfter && Config.stopSurvivesFault } }

/-- A memory ERROR on the engine's access: FAULT with cause MEMORY and the MEMORY flag (R19, R147, R151, R155). -/
def chainMemoryFault (s : State) : State := chainFault .memory (setMemoryFlag s)

/-! ### The access of the work in progress (R145) -/

/-- Word `k` of the descriptor at the current address. -/
def State.descWordAddr (s : State) (k : Nat) : Word := s.chain.descAddr + BitVec.ofNat 32 (4 * k)

/-- Where word `k` of the record at position `count` is written (R143, R148). -/
def State.recordWordAddr (s : State) (k : Fin 8) : Word :=
  s.chain.area + BitVec.ofNat 32 (32 * s.chain.count + 4 * k.val)

/-- Present the completion word of the current descriptor (R143, R149). -/
def writeCompletion (err : Bool) (e : EndCause) (count : Nat) (s : State) : State :=
  s.presentChain .chainCompletion (ownWrite (s.descWordAddr 3) (completionWord err e count))

/-- Present the access that the work in progress has reached: a descriptor word (R147), a completion word (R147, R149), a re-read word (R155) or a word of the head record (R148). It waits while memory still has the engine's previous access (R145). -/
def presentWork (s : State) : State :=
  match s.chain.work with
  | .none => s
  | .descriptor k => s.presentChain .chainDesc (ownRead (s.descWordAddr k.val))
  | .refusal e => writeCompletion true e 0 s
  | .rereadControl => s.presentChain .chainReread (ownRead (s.descWordAddr 0))
  | .rereadNext _ => s.presentChain .chainReread (ownRead (s.descWordAddr 1))
  | .record k =>
    match s.retire with
    | r :: _ => s.presentChain .chainRecord (ownWrite (s.recordWordAddr k) (r.record.word k))
    | [] => s
  | .completion e => writeCompletion false e s.chain.count s

/-- The engine's work goes on at `w`, whose access is presented (R145). -/
def beginWork (w : ChainWork) (s : State) : State :=
  presentWork { s with chain := { s.chain with work := w } }

/-! ### Fetching (R147) -/

/-- A fetch begins at `addr` (R147). -/
def fetchBegin (addr : Word) (s : State) : State :=
  let s := { s with chain := { s.chain with
    state := .fetch, descAddr := addr, count := 0, pendingFlush := false } }
  if addr.toNat % 16 = 0 then beginWork (.descriptor 0) s else chainFault .align s

/-! ### Filling and completion (R148, R149) -/

/-- In FILLING, with no work in progress and a record waiting, the engine presents word 0 of the head record (R148). -/
def chainPump (s : State) : State :=
  if s.chain.state = .filling ∧ s.chain.work = .none ∧ s.retire ≠ [] then
    beginWork (.record 0) s
  else s

/-- The descriptor ends and its completion is due; pending flush is cleared (R149). -/
def endDescriptor (e : EndCause) (s : State) : State :=
  beginWork (.completion e) { s with chain := { s.chain with pendingFlush := false } }

/-- A disposition record joins the tail of the retire buffer; into an empty buffer it starts its write (R118, R141, R148). -/
def retireRecord (d : Disposition) (s : State) : State :=
  chainPump { s with retire := s.retire ++ [⟨d, false⟩] }

/-- The last element, changed by `f`. -/
def modifyLast {α : Type} (f : α → α) : List α → List α
  | [] => []
  | [x] => [f x]
  | x :: y :: ys => x :: modifyLast f (y :: ys)

/-- The engine receives a batch record (R142). -/
def batchToChain (s : State) : State :=
  match s.retire with
  | _ :: _ => { s with retire := modifyLast (fun r => { r with boundary := true }) s.retire }
  | [] =>
    if s.chain.state = .filling ∧ 0 < s.chain.count ∧ s.chain.work = .none ∧
        descBatchClose s.chain.control then endDescriptor .batch s
    else s

/-! ### Memory's answers to the engine -/

/-- The engine's granted access is answered: the port is free again (R20). -/
def freePort (s : State) : State := { s with port := none }

/-- An abandoned access of the engine has been answered: the answer is discarded, and an access that waited for it is presented (R145; R154, case 1). -/
def afterAbandoned (s : State) : State :=
  match s.chainReq.req with
  | none => presentWork s
  | some _ => s

/-- An answer of memory to the engine's access of this kind: nothing where memory holds no such access (log 13); an abandoned one is discarded; otherwise the engine acts. -/
def chainAnswer (job : Job) (act : State → State) (s : State) : State :=
  match s.port with
  | some g =>
    if g.job = job then
      if g.abandoned then afterAbandoned (freePort s) else act (freePort s)
    else s
  | none => s

/-- Word 2 has arrived: the descriptor is refused, or the engine goes to FILLING (R147, steps 3 to 5). -/
def descriptorFetched (s : State) : State :=
  if descCapacity s.chain.control = 0 then beginWork (.refusal .empty) s
  else if s.chain.area.toNat % 32 ≠ 0 then beginWork (.refusal .align) s
  else
    chainPump { s with chain := { s.chain with state := .filling, count := 0, work := .none } }

/-- A descriptor word arrives (R147). -/
def descriptorWord (data : Word) (s : State) : State :=
  match s.chain.work with
  | .descriptor 0 =>
    beginWork (.descriptor 1) { s with chain := { s.chain with control := data } }
  | .descriptor 1 =>
    beginWork (.descriptor 2) { s with chain := { s.chain with next := data } }
  | .descriptor 2 => descriptorFetched { s with chain := { s.chain with area := data } }
  | .none | .refusal _ | .rereadControl | .rereadNext _ | .record _ | .completion _ => s

/-- CHAIN_DESC_READ_DONE (R147). -/
def chainDescReadDone (answer : MemAnswer) (s : State) : State :=
  chainAnswer .chainDesc (match answer with
    | .ok data => descriptorWord data
    | .error => chainMemoryFault) s

def execChainDescReadDone (answer : MemAnswer) (s : State) : Host.Outcome State Fault Refusal :=
  .next (chainDescReadDone answer s)

/-- Present the re-read of word 1 of the held descriptor (R155). -/
def rereadNextWord (hold : Bool) (s : State) : State :=
  beginWork (.rereadNext hold) { s with chain := { s.chain with state := .fetch } }

/-- A re-read word arrives (R155). -/
def rereadWord (data : Word) (s : State) : State :=
  match s.chain.work with
  | .rereadControl => rereadNextWord (descHold data) s
  | .rereadNext true => setChainState .held .stillHeld s
  | .rereadNext false => fetchBegin data s
  | .none | .descriptor _ | .refusal _ | .record _ | .completion _ => s

/-- CHAIN_REREAD_DONE (R155). -/
def chainRereadDone (answer : MemAnswer) (s : State) : State :=
  chainAnswer .chainReread (match answer with
    | .ok data => rereadWord data
    | .error => chainMemoryFault) s

def execChainRereadDone (answer : MemAnswer) (s : State) : Host.Outcome State Fault Refusal :=
  .next (chainRereadDone answer s)

/-- The test for an end of the descriptor after a record is accepted (R149, 1); with none found the next head record is presented (R148, step 3). -/
def testDescriptorEnd (boundary : Bool) (s : State) : State :=
  if boundary && descBatchClose s.chain.control then endDescriptor .batch s
  else if s.chain.count = descCapacity s.chain.control then endDescriptor .full s
  else if s.chain.pendingFlush then endDescriptor .flush s
  else chainPump s

/-- Memory accepts word 7: the record leaves the buffer, is counted, and the end is tested (R148). -/
def recordAccepted (s : State) : State :=
  match s.retire with
  | r :: rest =>
    let s := evalOccupancy { s with retire := rest }
    testDescriptorEnd r.boundary
      { s with chain := { s.chain with count := s.chain.count + 1, work := .none } }
  | [] => s

/-- Memory accepts the record word in progress (R148). -/
def recordWordAccepted (s : State) : State :=
  match s.chain.work with
  | .record k => if k = 7 then recordAccepted s else beginWork (.record (k + 1)) s
  | .none | .descriptor _ | .refusal _ | .rereadControl | .rereadNext _ | .completion _ => s

/-- CHAIN_RECORD_WORD_DONE (R148, R151). -/
def chainRecordWordDone (answer : WriteAnswer) (s : State) : State :=
  chainAnswer .chainRecord (match answer with
    | .ok => recordWordAccepted
    | .error => chainMemoryFault) s

def execChainRecordWordDone (answer : WriteAnswer) (s : State) :
    Host.Outcome State Fault Refusal :=
  .next (chainRecordWordDone answer s)

/-- The CHAIN_DESC_DONE notice of a descriptor with NOTIFY set (R150). -/
def notifyDone (e : EndCause) (s : State) : State :=
  if descNotify s.chain.control then
    raise { kind := .chainDescDone, result := BitVec.ofNat 4 e.code
            arg16 := BitVec.ofNat 16 s.chain.count, arg32 := s.chain.descAddr } s
  else s

/-- Where the engine goes from a completed descriptor: OFF, HELD or the next descriptor (R150, steps 2 to 4). -/
def leaveDescriptor (e : EndCause) (s : State) : State :=
  if e = .stop ∨ s.chain.stopAfter then
    setChainState .off .stop { s with chain := { s.chain with stopAfter := false } }
  else
    match s.chain.mode with
    | .hold =>
      if descHold s.chain.control then setChainState .held .hold s
      else fetchBegin s.chain.next s
    | .lastAddress =>
      if s.chain.descAddr = s.chain.last then setChainState .held .lastAddress s
      else fetchBegin s.chain.next s

/-- The fault of a refused descriptor (R147, steps 3 and 4). -/
def refusalFault : EndCause → ChainFault
  | .empty => .empty
  | .full | .flush | .batch | .stop | .align => .align

/-- Memory accepts the completion word in progress (R147, R150). -/
def completionAccepted (s : State) : State :=
  match s.chain.work with
  | .completion e => leaveDescriptor e (notifyDone e s)
  | .refusal e => chainFault (refusalFault e) s
  | .none | .descriptor _ | .rereadControl | .rereadNext _ | .record _ => s

/-- CHAIN_COMPLETION_DONE (R147, R150, R151). -/
def chainCompletionDone (answer : WriteAnswer) (s : State) : State :=
  chainAnswer .chainCompletion (match answer with
    | .ok => completionAccepted
    | .error => chainMemoryFault) s

def execChainCompletionDone (answer : WriteAnswer) (s : State) :
    Host.Outcome State Fault Refusal :=
  .next (chainCompletionDone answer s)

/-! ### The pointer words (R144, R155) -/

/-- CHAIN_BASE_POINTER: a full write replaces the copy; a partial write is ignored (R144). -/
def chainBasePointer (data : Word) (enables : Enables) (s : State) : State :=
  if !s.resetLow && fullWrite enables then { s with chain := { s.chain with base := data } } else s

def execChainBasePointer (data : Word) (enables : Enables) (s : State) :
    Host.Outcome State Fault Refusal :=
  .next (chainBasePointer data enables s)

/-- A full write of the last pointer replaces the copy and sets its flag (R144); in LAST_ADDRESS mode it releases a HELD engine whose descriptor it does not name (R155, 2). -/
def lastPointerWritten (data : Word) (s : State) : State :=
  let s := { s with chain := { s.chain with last := data, lastWritten := true } }
  if s.chain.state = .held ∧ s.chain.mode = .lastAddress ∧ data ≠ s.chain.descAddr then
    rereadNextWord false s
  else s

/-- CHAIN_LAST_POINTER (R144, R155). -/
def chainLastPointer (data : Word) (enables : Enables) (s : State) : State :=
  if !s.resetLow && fullWrite enables then lastPointerWritten data s else s

def execChainLastPointer (data : Word) (enables : Enables) (s : State) :
    Host.Outcome State Fault Refusal :=
  .next (chainLastPointer data enables s)

/-! ### Chain commands (R152 to R155) -/

/-- The control mode that CHAIN_START latches (R146). -/
def State.startMode (s : State) : ChainMode :=
  if s.chain.lastWritten then .lastAddress else .hold

/-- 0 for HOLD mode, 1 for LAST_ADDRESS mode (R152). -/
def ChainMode.ackArg : ChainMode → Word
  | .hold => 0#32
  | .lastAddress => 1#32

/-- CHAIN_START in OFF or FAULT (R152). -/
def chainStarted (s : State) : State :=
  ackTaken .chainStart s.startMode.ackArg
    (fetchBegin s.chain.base
      { s with chain := { s.chain with mode := s.startMode, fault := .none } })

/-- CHAIN_START (R152). -/
def commandChainStart : State → State :=
  whenIdle .chainStart fun s =>
    match s.chain.state with
    | .off | .fault => chainStarted s
    | .fetch | .filling | .held => refuse .chainStart .badState s

def execChainStart (s : State) : Host.Outcome State Fault Refusal := .next (commandChainStart s)

/-- The re-read of words 0 and 1 of the held descriptor begins (R155, 1). -/
def resumeHeld (s : State) : State :=
  beginWork .rereadControl { s with chain := { s.chain with state := .fetch } }

/-- CHAIN_RESUME (R155, 1). -/
def commandChainResume : State → State :=
  whenIdle .chainResume fun s =>
    if s.chain.state = .held ∧ s.chain.mode = .hold then
      ackTaken .chainResume 0#32 (resumeHeld s)
    else refuse .chainResume .badState s

def execChainResume (s : State) : Host.Outcome State Fault Refusal := .next (commandChainResume s)

/-- The end STOP of a FILLING descriptor: a record write is abandoned, and the completion word is presented once memory holds no abandoned access of the engine (R145; R154, case 1). -/
def stopFilling (s : State) : State := endDescriptor .stop s.withdrawChain

/-- CHAIN_STOP in FILLING (R154, cases 1 and 2). -/
def chainStopFilling (s : State) : State :=
  match s.chain.work with
  | .completion _ =>
    ackTaken .chainStop 0#32 { s with chain := { s.chain with stopAfter := true } }
  | .none | .descriptor _ | .refusal _ | .rereadControl | .rereadNext _ | .record _ =>
    ackTaken .chainStop (BitVec.ofNat 32 s.chain.count) (stopFilling s)

/-- The engine goes to OFF in the command's event (R154, cases 3 and 4). -/
def chainTurnOff (s : State) : State :=
  setChainState .off .stop
    { s.withdrawChain with chain := { s.chain with fault := .none } }

/-- CHAIN_STOP (R154). -/
def commandChainStop : State → State :=
  whenIdle .chainStop fun s =>
    match s.chain.state with
    | .filling => chainStopFilling s
    | .fetch | .held | .fault => ackTaken .chainStop 0#32 (chainTurnOff s)
    | .off => ackTaken .chainStop 0#32 s

def execChainStop (s : State) : Host.Outcome State Fault Refusal := .next (commandChainStop s)

/-- What CHAIN_FLUSH does to a FILLING descriptor (R153). -/
def flushFilling (s : State) : State :=
  if s.chain.count = 0 then s
  else
    match s.chain.work with
    | .completion _ => s
    | .record _ => { s with chain := { s.chain with pendingFlush := true } }
    | .none | .descriptor _ | .refusal _ | .rereadControl | .rereadNext _ =>
      endDescriptor .flush s

/-- The count that CHAIN_FLUSH acknowledges: 0 while a completion is being written (R153). -/
def State.flushArg (s : State) : Word :=
  match s.chain.work with
  | .completion _ => 0#32
  | .none | .descriptor _ | .refusal _ | .rereadControl | .rereadNext _ | .record _ =>
    BitVec.ofNat 32 s.chain.count

/-- CHAIN_FLUSH (R153). -/
def commandChainFlush : State → State :=
  whenIdle .chainFlush fun s =>
    match s.chain.state with
    | .filling => ackTaken .chainFlush s.flushArg (flushFilling s)
    | .fetch | .held => ackTaken .chainFlush 0#32 s
    | .off | .fault => refuse .chainFlush .badState s

def execChainFlush (s : State) : Host.Outcome State Fault Refusal := .next (commandChainFlush s)

end Sys2Proof.Machine
end

