-- ==== Sys2Proof/Machine/PocketTable.lean ====
section
/-! DEFINITION. The pocket table (spec/07_pockets_and_batches.md): landing, reservations, drains, batches, the sweep sequence, and the meanings of its rows. -/

namespace Sys2Proof.Machine

/-! ### Batches and drains (R132, R133) -/

/-- A batch ends with the pocket in its new state: the POCKET_CLOSED notice, then the batch record to the chain engine (R133). -/
def batchEnd (p : PocketIx) (s : State) : State :=
  batchToChain
    (raise { kind := .pocketClosed, source := BitVec.ofNat 8 p.val
             result := BitVec.ofNat 4 (s.pocket p).state.code
             arg16 := (s.pocket p).batch, arg32 := BitVec.ofNat 32 (s.pocket p).fill } s)

/-- The pocket takes a new state and its batch ends (R133). -/
def closeBatch (p : PocketIx) (st : PocketState) (s : State) : State :=
  batchEnd p (s.setPocket p { s.pocket p with state := st })

/-- The state a drain target leads to (R132). -/
def DrainTarget.state : DrainTarget → PocketState
  | .closed => .closed
  | .disabled => .disabled

/-- A DRAINING pocket whose in-flight count has reached 0 takes its drain target, and its batch ends (R132). -/
def drainIfEmpty (p : PocketIx) (s : State) : State :=
  match (s.pocket p).state with
  | .draining target => if (s.pocket p).inFlight = 0 then closeBatch p target.state s else s
  | .disabled | .opened | .closed => s

/-- DRAIN_COMPLETE (R132). It is taken inside every departure (R118); alone it acts where a drain is due (log 4). -/
def drainComplete (p : PocketIx) (s : State) : State :=
  if s.resetLow then s else drainIfEmpty p s

def execDrainComplete (p : PocketIx) (s : State) : Host.Outcome State Fault Refusal :=
  .next (drainComplete p s)

/-- The final pocket's in-flight count takes the fall of a departure, which may complete its drain (R118, step 2). -/
def releaseReservation (p : PocketIx) (s : State) : State :=
  drainIfEmpty p (s.setPocket p { s.pocket p with inFlight := (s.pocket p).inFlight - 1 })

/-! ### Landing (R113) -/

/-- The POCKET_NEAR_FULL and POCKET_FULL notices of a new fill (R113). -/
def fillNotices (p : PocketIx) (tag : Word) (s : State) : State :=
  let n : Notice :=
    { kind := .pocketNearFull, source := BitVec.ofNat 8 p.val
      arg16 := BitVec.ofNat 16 (s.pocket p).fill, arg32 := tag }
  let near := (s.pocket p).threshold ≠ 0 ∧ (s.pocket p).fill = (s.pocket p).threshold
  let full := (s.pocket p).capacity = some (s.pocket p).fill
  let s := if near then raise n s else s
  if full then raise { n with kind := .pocketFull } s else s

/-- The pocket's fill rises by 1, saturating, with its notices; for pocket 0 FEED_HOLD is evaluated (R113). -/
def raiseFill (p : PocketIx) (tag : Word) (s : State) : State :=
  if (s.pocket p).fill < Config.maxFill then
    let s := fillNotices p tag (s.setPocket p { s.pocket p with fill := (s.pocket p).fill + 1 })
    if p = 0 then evalFeedHold s else s
  else s

/-! ### Pocket commands (R129 to R131) -/

/-- The check of R129, step 1: pocket 0 and pockets at or above P are refused. -/
def State.pocketArgBad (s : State) (p : PocketIx) : Bool :=
  decide (p = 0) || decide (s.plan.pocketCount ≤ p.val)

/-- A pocket command: BAD_ARG, or its own effect (R129). -/
def pocketCommandOn (c : Command) (p : PocketIx) (own : State → State) : State → State :=
  whenIdle c fun s => if s.pocketArgBad p then refuse c .badArg s else own s

/-- A pocket starts a new batch: OPEN, fill 0, the batch number one higher (R131). -/
def newBatch (p : PocketIx) (s : State) : State :=
  s.setPocket p { s.pocket p with state := .opened, fill := 0, batch := (s.pocket p).batch + 1 }

/-- The acknowledgment of a command that started a batch carries the new batch number (R131). -/
def ackBatch (c : Command) (p : PocketIx) (s : State) : State :=
  ackTaken c ((s.pocket p).batch.setWidth 32) s

/-- POCKET_OPEN is admitted from CLOSED (R131). -/
def commandPocketOpen (p : PocketIx) : State → State :=
  pocketCommandOn (.pocketOpen p) p fun s =>
    match (s.pocket p).state with
    | .closed => ackBatch (.pocketOpen p) p (newBatch p s)
    | .opened | .draining _ | .disabled => refuse (.pocketOpen p) .badState s

def execPocketOpen (p : PocketIx) (s : State) : Host.Outcome State Fault Refusal :=
  .next (commandPocketOpen p s)

/-- POCKET_ENABLE is admitted from DISABLED (R131). -/
def commandPocketEnable (p : PocketIx) : State → State :=
  pocketCommandOn (.pocketEnable p) p fun s =>
    match (s.pocket p).state with
    | .disabled => ackBatch (.pocketEnable p) p (newBatch p s)
    | .opened | .draining _ | .closed => refuse (.pocketEnable p) .badState s

def execPocketEnable (p : PocketIx) (s : State) : Host.Outcome State Fault Refusal :=
  .next (commandPocketEnable p s)

/-- The pocket becomes DRAINING with this drain target (R130, R136). -/
def startDrain (p : PocketIx) (target : DrainTarget) (s : State) : State :=
  s.setPocket p { s.pocket p with state := .draining target }

/-- POCKET_DISABLE, by the pocket's state (R130). -/
def disablePocket (p : PocketIx) (s : State) : State :=
  let ack := ackTaken (.pocketDisable p)
  match (s.pocket p).state with
  | .opened =>
    if (s.pocket p).inFlight = 0 then ack 0#32 (closeBatch p .disabled s)
    else ack (BitVec.ofNat 32 (s.pocket p).inFlight) (startDrain p .disabled s)
  | .draining _ => ack (BitVec.ofNat 32 (s.pocket p).inFlight) (startDrain p .disabled s)
  | .closed => ack 0#32 (s.setPocket p { s.pocket p with state := .disabled })
  | .disabled => refuse (.pocketDisable p) .badState s

/-- POCKET_DISABLE (R129, R130). -/
def commandPocketDisable (p : PocketIx) : State → State :=
  pocketCommandOn (.pocketDisable p) p (disablePocket p)

def execPocketDisable (p : PocketIx) (s : State) : Host.Outcome State Fault Refusal :=
  .next (commandPocketDisable p s)

/-! ### The sweep sequence (R135 to R138) -/

/-- A sweep command refused with SEQ_ERROR or BAD_ARG returns the sequence to IDLE (R135). -/
def refuseSweep (c : Command) (r : ResultCode) (s : State) : State :=
  refuse c r { s with sweep := .idle }

/-- SWEEP_FIRST (R137). -/
def commandSweepFirst (p : PocketIx) : State → State :=
  whenIdle (.sweepFirst p) fun s =>
    match s.sweep with
    | .firstSet _ | .rangeSet _ _ _ => refuseSweep (.sweepFirst p) .seqError s
    | .idle =>
      if s.plan.pocketCount ≤ p.val then refuseSweep (.sweepFirst p) .badArg s
      else ackSweep (.sweepFirst p) (BitVec.ofNat 32 p.val) { s with sweep := .firstSet p }

def execSweepFirst (p : PocketIx) (s : State) : Host.Outcome State Fault Refusal :=
  .next (commandSweepFirst p s)

/-- SWEEP_LAST (R137). -/
def commandSweepLast (q : PocketIx) : State → State :=
  whenIdle (.sweepLast q) fun s =>
    match s.sweep with
    | .idle | .rangeSet _ _ _ => refuseSweep (.sweepLast q) .seqError s
    | .firstSet first =>
      if s.plan.pocketCount ≤ q.val ∨ q < first then refuseSweep (.sweepLast q) .badArg s
      else
        ackSweep (.sweepLast q) (BitVec.ofNat 32 q.val) { s with sweep := .rangeSet first q [] }

def execSweepLast (p : PocketIx) (s : State) : Host.Outcome State Fault Refusal :=
  .next (commandSweepLast p s)

/-- SWEEP_EXCLUDE (R138). -/
def commandSweepExclude (r : PocketIx) : State → State :=
  whenIdle (.sweepExclude r) fun s =>
    match s.sweep with
    | .idle | .firstSet _ => refuseSweep (.sweepExclude r) .seqError s
    | .rangeSet first last ex =>
      if first ≤ r ∧ r ≤ last ∧ r ∉ ex ∧ ex.length < Config.maxExclusions then
        ackSweep (.sweepExclude r) (BitVec.ofNat 32 (ex.length + 1))
          { s with sweep := .rangeSet first last (ex ++ [r]) }
      else refuseSweep (.sweepExclude r) .seqError s

def execSweepExclude (p : PocketIx) (s : State) : Host.Outcome State Fault Refusal :=
  .next (commandSweepExclude p s)

/-- The pockets a sweep selects, in ascending order: pocket 0 and the exclusions are passed over (R136). -/
def sweepSelection (first last : PocketIx) (ex : List PocketIx) : List PocketIx :=
  (List.finRange 64).filter fun p =>
    decide (first ≤ p) && decide (p ≤ last) && decide (p ≠ 0) && decide (p ∉ ex)

/-- What SWEEP_GO does to one selected pocket, by its state (R136). -/
def sweepPocket (p : PocketIx) (s : State) : State :=
  match (s.pocket p).state with
  | .opened =>
    if (s.pocket p).inFlight = 0 then closeBatch p .closed s else startDrain p .closed s
  | .disabled => raise { kind := .sweepSkip, source := BitVec.ofNat 8 p.val } s
  | .closed | .draining _ => s

/-- SWEEP_GO takes the selected pockets one after another (R136). -/
def sweepPockets (ps : List PocketIx) (s : State) : State :=
  ps.foldl (fun s p => sweepPocket p s) s

/-- The pockets that SWEEP_GO makes CLOSED or DRAINING are the OPEN ones it selects (R136). -/
def sweepCount (ps : List PocketIx) (s : State) : Nat :=
  ps.countP fun p => decide ((s.pocket p).state = .opened)

/-- SWEEP_GO (R136). -/
def commandSweepGo : State → State :=
  whenIdle .sweepGo fun s =>
    match s.sweep with
    | .idle | .firstSet _ => refuseSweep .sweepGo .seqError s
    | .rangeSet first last ex =>
      let ps := sweepSelection first last ex
      ackSweep .sweepGo (BitVec.ofNat 32 (sweepCount ps s))
        { sweepPockets ps s with sweep := .idle }

def execSweepGo (s : State) : Host.Outcome State Fault Refusal := .next (commandSweepGo s)

end Sys2Proof.Machine
end

