-- ==== Sys2Proof/Machine/Resolver.lean ====
section
/-! DEFINITION. The resolver (spec/05_resolution.md): the early condition, the read summary, the decision and its reservation. It holds no state (R109). -/

namespace Sys2Proof.Machine

abbrev Pockets := Vector Pocket 64

/-! ### The early condition (R94) -/

/-- A station is waited for when its framing is HUNT or LOCKED and its expectation is EXPECTED (R94). -/
def Station.waitedFor (st : Station) : Bool :=
  st.framing != .off && st.expectation == .expected

/-- A letter is COLLECTING. -/
def Letter.collecting (l : Letter) : Bool := l.state == .collecting

/-- A letter is AWAIT_PLAN. -/
def Letter.awaiting (l : Letter) : Bool := l.state == .awaitPlan

/-- The early condition: a station is waited for, and every waited-for station has reported (R94). -/
def earlyReady (stations : Vector Station 4) (l : Letter) : Bool :=
  allStations.any (fun st => stations[st].waitedFor) &&
    allStations.all (fun st => !stations[st].waitedFor || l.reported[st])

/-! ### The read summary (R98 to R100) -/

structure Summary where
  key     : Option AccountKey
  clash   : Bool
  reason  : BitVec 4
  forward : Bool
deriving DecidableEq, Repr

/-- The key of a valid ACCOUNT read. -/
def Read.validKey (r : Read) : Option AccountKey :=
  match r.valid, r.body with
  | true, .account key _ => some key
  | true, .endorse _ | true, .forward | false, _ => none

/-- The reason class of a valid ENDORSE read. -/
def Read.validReason (r : Read) : Option Byte :=
  match r.valid, r.body with
  | true, .endorse reason => some reason
  | true, .account _ _ | true, .forward | false, _ => none

/-- A valid FORWARD read. -/
def Read.validForward (r : Read) : Bool := r.valid && r.body == .forward

/-- The summary of a read set (R98 to R100). -/
def summarize (reads : List Read) : Summary :=
  let keys := reads.filterMap Read.validKey
  let agreed :=
    match keys with
    | [] => none
    | k :: ks => if ks.all (· == k) then some k else none
  { key := agreed
    clash := !keys.isEmpty && agreed.isNone
    reason := ((reads.findSome? Read.validReason).getD 0#8).setWidth 4
    forward := reads.any Read.validForward }

/-! ### The decision (R101 to R104) -/

/-- A pocket is available to a resolution (R103). -/
def pocketAvailable (pk : Pockets) (p : PocketIx) : Bool :=
  decide (p = 0) ||
    (decide (pk[p].state = .opened) &&
      (match pk[p].capacity with
       | some c => decide (pk[p].fill + pk[p].inFlight < c)
       | none => true))

/-- A decision to the reject pocket for a cause of R101. -/
def rejectDecision (cause : Cause) : Decision := ⟨0, 0, cause, false, none⟩

/-- The first rule that matches, with its index (R32, R102). -/
def matchRule (rules : List Rule) (sum : Summary) : Option (Rule × Nat) :=
  rules.zipIdx.find? fun r => r.1.matches sum.reason sum.forward sum.key

/-- The intended pocket, with its cause and rule index (R102). -/
def intendedPocket (plan : Plan) (sum : Summary) : PocketIx × Cause × Option Nat :=
  match matchRule plan.rules sum with
  | some (r, i) => (r.pocket, .rule, some i)
  | none =>
    if sum.key.isSome then (plan.defaultPocket, .default, none)
    else (plan.noReadPocket, .noRead, none)

/-- The intended pocket's partner, where it is available (R104, step 2). -/
def availablePartner (pk : Pockets) (p : PocketIx) : Option PocketIx :=
  match pk[p].partner with
  | some q => if pocketAvailable pk q then some q else none
  | none => none

/-- The final pocket of an intended pocket (R104). -/
def settle (pk : Pockets) (p : PocketIx) (cause : Cause) (ruleIndex : Option Nat) : Decision :=
  if pocketAvailable pk p then ⟨p, p, cause, false, ruleIndex⟩
  else
    match availablePartner pk p with
    | some q => ⟨p, q, cause, true, ruleIndex⟩
    | none =>
      ⟨p, 0, if pk[p].state = .opened then .intendedFull else .intendedClosed, false, none⟩

/-- The decision of a letter under a plan that is not LOADING (R101 to R104). -/
def decideLetter (plan : Plan) (pk : Pockets) (l : Letter) (sum : Summary) : Decision :=
  if plan.state = .invalid then rejectDecision .noPlan
  else if l.double then rejectDecision .doubleFeed
  else if l.close then rejectDecision .gap
  else if sum.clash then rejectDecision .conflict
  else
    let i := intendedPocket plan sum
    settle pk i.1 i.2.1 i.2.2

/-! ### Resolving (R96, R105, R108) -/

/-- The reservation: the final pocket's in-flight count rises by 1 (R105). -/
def reservePocket (pk : Pockets) (p : PocketIx) : Pockets :=
  pk.set p.val { pk[p] with inFlight := pk[p].inFlight + 1 } p.isLt

/-- A DECIDED letter, with the summary that its resolution formed (R98, R105). -/
def Letter.decidedAs (l : Letter) (d : Decision) (sum : Summary) : Letter :=
  { l with state := .decided d, accountKey := sum.key, reasonClass := sum.reason
           forwardPresent := sum.forward }

/-- One resolution (R96): LOADING sends the letter to AWAIT_PLAN; otherwise it is decided and its pocket reserved. -/
def resolveLetter (plan : Plan) (pk : Pockets) (l : Letter) : Pockets × Letter :=
  match plan.state with
  | .loading => (pk, { l with state := .awaitPlan })
  | .invalid | .valid =>
    let sum := summarize l.reads
    let d := decideLetter plan pk l sum
    (reservePocket pk d.final, l.decidedAs d sum)

/-- Resolve every ready letter of a list in order, each resolution seeing the reservations before it (R108). -/
def resolveList (plan : Plan) (ready : Letter → Bool) :
    Pockets → List Letter → Pockets × List Letter
  | pk, [] => (pk, [])
  | pk, l :: ls =>
    if ready l then
      let r := resolveLetter plan pk l
      let rs := resolveList plan ready r.1 ls
      (rs.1, r.2 :: rs.2)
    else
      let rs := resolveList plan ready pk ls
      (rs.1, l :: rs.2)

/-- Resolve the first ready letter of a list. -/
def resolveFirst (plan : Plan) (ready : Letter → Bool) :
    Pockets → List Letter → Pockets × List Letter
  | pk, [] => (pk, [])
  | pk, l :: ls =>
    if ready l then
      let r := resolveLetter plan pk l
      (r.1, r.2 :: ls)
    else
      let rs := resolveFirst plan ready pk ls
      (rs.1, l :: rs.2)

/-- Every ready letter of the transit list is resolved, in list order (R108). -/
def State.resolveWhere (s : State) (ready : Letter → Bool) : State :=
  let r := resolveList s.plan ready s.pockets s.transit.letters
  { s with pockets := r.1, transit := { s.transit with letters := r.2 } }

/-- The first ready letter of the transit list is resolved. -/
def State.resolveOne (s : State) (ready : Letter → Bool) : State :=
  let r := resolveFirst s.plan ready s.pockets s.transit.letters
  { s with pockets := r.1, transit := { s.transit with letters := r.2 } }

/-- A COLLECTING letter whose early condition holds as the stations stand (R94, R95). -/
def State.readyNow (s : State) (l : Letter) : Bool := l.collecting && earlyReady s.stations l

/-- Every COLLECTING letter is tested for its early condition, in list order (R95, 2 to 4). -/
def resolveReady (s : State) : State := s.resolveWhere s.readyNow

/-- Every AWAIT_PLAN letter is resolved at a load's completion, in list order (R37, R38). -/
def resolveAwaiting (s : State) : State := s.resolveWhere Letter.awaiting

end Sys2Proof.Machine
end

