-- ==== Sys2Proof/Machine/TransitList.lean ====
section
/-! DEFINITION. The transport monitor and the transit list (spec/03_transport_and_the_transit_list.md), with departures and the disposition record (spec/06_dispatch_at_the_gate_window.md R118 to R122), and the meanings of their rows. -/

namespace Sys2Proof.Machine

/-! ### Departures (R118, R121, R122) -/

/-- The decision of a letter, if it is DECIDED. -/
def Letter.decision (l : Letter) : Option Decision :=
  match l.state with
  | .decided d => some d
  | .collecting | .awaitPlan => none

/-- The account key, reason class and forward present of a departing letter: its own when DECIDED, otherwise formed from the read set as it stands (R122). -/
def Letter.leavingSummary (l : Letter) : Summary :=
  match l.state with
  | .decided _ => ⟨l.accountKey, false, l.reasonClass, l.forwardPresent⟩
  | .collecting | .awaitPlan => summarize l.reads

/-- The decision part of a disposition record: intended, final, cause, via-partner and rule index (R121). -/
def Letter.leavingDecision (l : Letter) (o : DispositionOutcome) :
    Option PocketIx × Option PocketIx × Cause × Bool × Option Nat :=
  match l.decision, o with
  | some d, _ =>
    (some d.intended, some d.final, d.cause, d.viaPartner,
      if d.cause = .rule then d.ruleIndex else none)
  | none, .lateDecision => (none, some 0, .lateDecision, false, none)
  | none, .dispatched | none, .lost | none, .purged => (none, none, .none, false, none)

/-- The final pocket's batch number; 0 when the final pocket is NONE (R121). -/
def State.leavingBatch (s : State) (final : Option PocketIx) : BitVec 16 :=
  match final with
  | some p => (s.pocket p).batch
  | none => 0#16

/-- The disposition record of a letter that leaves now (R121). -/
def State.disposition (s : State) (o : DispositionOutcome) (l : Letter) : Disposition :=
  let d := l.leavingDecision o
  let sum := l.leavingSummary
  { tag := l.tag, outcome := o, intended := d.1, final := d.2.1, cause := d.2.2.1
    viaPartner := d.2.2.2.1, ruleIndex := d.2.2.2.2, batch := s.leavingBatch d.2.1
    accountKey := sum.key, reasonClass := sum.reason, forwardPresent := sum.forward
    readsTaken := l.reads.length, reported := l.reported, lateReads := l.lateReads
    overrun := l.overrun, lengthClass := l.lengthClass, double := l.double, close := l.close
    entryPos := l.entryPos, leavePos := s.transport.position }

/-- A departing DECIDED letter's reservation is released (R65, R118). -/
def releaseLetter (l : Letter) (s : State) : State :=
  match l.decision with
  | some d => releaseReservation d.final s
  | none => s

/-- A departure is completed, the letter having been removed from the list (R118). -/
def depart (o : DispositionOutcome) (l : Letter) (s : State) : State :=
  stopStallIfEmpty (releaseLetter l (retireRecord (s.disposition o l) s))

/-! ### Expiries (R48 to R50) -/

/-- A layout distance: 0 while no layout is in force, when no letter is in the list. -/
def State.layoutNat (s : State) (f : Layout → Nat) : Nat :=
  match s.plan.layout with
  | some l => f l
  | none => 0

/-- The lost point of a letter has been reached (R48). -/
def State.lostReached (s : State) (l : Letter) : Bool :=
  positionReached s.transport.position (positionAfter l.entryPos (s.layoutNat Layout.lostDistance))

/-- The decide point of a letter has been reached (R48). -/
def State.decideReached (s : State) (l : Letter) : Bool :=
  positionReached s.transport.position
    (positionAfter l.entryPos (s.layoutNat Layout.decideDistance))

/-- The 32-bit argument of LETTER_LOST: the final pocket, or 0xFFFFFFFF for an undecided letter (R50). -/
def Letter.lostArg (l : Letter) : Word :=
  match l.decision with
  | some d => BitVec.ofNat 32 d.final.val
  | none => 0xFFFFFFFF#32

/-- The lost expiry of the oldest letter `l`, `rest` being the letters behind it (R50, R119). -/
def expireLost (l : Letter) (rest : List Letter) (s : State) : State :=
  raise { kind := .letterLost, cause := l.state.lostCode, arg16 := l.tag, arg32 := l.lostArg }
    (depart .lost l (s.setLetters rest))

/-- While the oldest letter's lost point has been reached, its lost expiry is taken (R48). -/
def takeLost : List Letter → State → State
  | [], s => s
  | l :: rest, s => if s.lostReached l then takeLost rest (expireLost l rest s) else s

/-- LOST_EXPIRY (R50). ENC_ADVANCE takes the expiries its count reaches; alone it acts where the oldest letter's lost point has been reached (log 4). -/
def lostExpiry (s : State) : State :=
  if s.resetLow then s
  else
    match s.transit.letters with
    | [] => s
    | l :: rest => if s.lostReached l then expireLost l rest s else s

def execLostExpiry (s : State) : Host.Outcome State Fault Refusal := .next (lostExpiry s)

/-- A station counts a miss for this letter (R86). -/
def missCounted (l : Letter) (st : StationIx) (s : State) : Bool :=
  (s.station st).waitedFor && !l.reported[st]

/-- The station's miss counter after one more miss (R86). -/
def Station.missed (x : Station) : Station := { x with misses := satSucc Config.maxCount4 x.misses }

/-- One station's miss at the decide-point expiry of letter `l`, and its degradation at the miss limit (R86). -/
def countMiss (l : Letter) (s : State) (st : StationIx) : State :=
  if missCounted l st s then
    let x := (s.station st).missed
    if s.plan.missLimit ≤ x.misses then
      raise { kind := .stationDegraded, source := BitVec.ofNat 8 st.val
              result := BitVec.ofNat 4 Expectation.degraded.code
              arg16 := BitVec.ofNat 16 x.misses, arg32 := l.tag.setWidth 32 }
        (s.setStation st { x with expectation := .degraded })
    else s.setStation st x
  else s

/-- Misses are counted in ascending station order (R86). -/
def countMisses (l : Letter) (s : State) : State := allStations.foldl (countMiss l) s

/-- A station has become DEGRADED between two states of one event (R49, step 3). -/
def degradedSince (s t : State) : Bool :=
  allStations.any fun st =>
    (s.station st).expectation == .expected && (t.station st).expectation == .degraded

/-- The decide-point expiry of letter `l`, the oldest COLLECTING letter (R49). -/
def expireDecide (l : Letter) (s : State) : State :=
  let s1 := s.resolveOne Letter.collecting
  let s2 := countMisses l s1
  if degradedSince s1 s2 then resolveReady s2 else s2

/-- The decide watch: the oldest COLLECTING letter (R48). -/
def State.decideWatch (s : State) : Option Letter := s.transit.letters.find? Letter.collecting

/-- One decide-point expiry, where the watched letter's decide point has been reached (R48, R49). -/
def decideDue (s : State) : State :=
  match s.decideWatch with
  | some l => if s.decideReached l then expireDecide l s else s
  | none => s

/-- While the watched letter's decide point has been reached, its expiry is taken (R48): at most once for each of `n` letters. -/
def takeDecides : Nat → State → State
  | 0, s => s
  | n + 1, s => takeDecides n (decideDue s)

/-- DECIDE_EXPIRY (R49); as LOST_EXPIRY, it acts where the point has been reached (log 4). -/
def decideExpiry (s : State) : State := if s.resetLow then s else decideDue s

def execDecideExpiry (s : State) : Host.Outcome State Fault Refusal := .next (decideExpiry s)

/-! ### The advance (R46) -/

/-- The gap count after an advance: absent stays absent, and it saturates (R46, R61). -/
def nextGap (gap : Option Nat) : Option Nat := gap.map (satSucc Config.maxCount16)

/-- Steps 1 and 2 of an advance: the counter and the gap count (R46). -/
def countAdvance (s : State) : State :=
  { s with
    transport := { s.transport with position := s.transport.position + 1 }
    transit := { s.transit with gap := nextGap s.transit.gap } }

/-- Step 3 of an advance: a STALLED line returns to RUNNING (R46, R52). -/
def endStall (s : State) : State :=
  if s.transport.line = .stalled then setLine .running .motion s else s

/-- Step 5 of an advance: lost expiries, then decide expiries (R48). -/
def takeExpiries (s : State) : State :=
  let s := takeLost s.transit.letters s
  takeDecides s.transit.letters.length s

/-- One advance (R46). -/
def advance (s : State) : State := takeExpiries (restartStall (endStall (countAdvance s)))

/-- ENC_ADVANCE (R46): edges are ignored while RESET_N is low. -/
def encAdvance (s : State) : State := if s.resetLow then s else advance s

def execEncAdvance (s : State) : Host.Outcome State Fault Refusal := .next (encAdvance s)

/-! ### The stall monitor (R51, R52) -/

/-- The stall monitor expires: the line goes to STALLED and the monitor stops (R52). -/
def stallExpired (s : State) : State :=
  setLine .stalled .stall { s with transport := { s.transport with stall := none } }

/-- STALL_EXPIRY (R52): the REFCLK edges that remain pass, and the monitor expires; nothing where it does not run (log 7). -/
def stallExpiry (s : State) : State :=
  if s.transport.stall.isSome then stallExpired s else s

def execStallExpiry (s : State) : Host.Outcome State Fault Refusal := .next (stallExpiry s)

/-- One REFCLK rising edge: a running monitor counts it, and expires when the timeout's edges have been counted (R51). The model takes it as the step of an empty queue (log 7). -/
def refclkEdge (s : State) : State :=
  match s.transport.stall with
  | some n =>
    if s.stallEdges ≤ n + 1 then stallExpired s
    else { s with transport := { s.transport with stall := some (n + 1) } }
  | none => s

/-! ### Line commands (R54, R55) -/

/-- START on a STOPPED line with a VALID plan (R54). -/
def startLine (s : State) : State :=
  ackTaken .start 0#32 (restartStall (setLine .running .start s))

/-- START (R54). -/
def commandStart : State → State :=
  whenIdle .start fun s =>
    match s.transport.line, s.plan.state with
    | .running, _ | .stalled, _ => refuse .start .badState s
    | .stopped, .valid => startLine s
    | .stopped, .invalid | .stopped, .loading => refuse .start .noPlan s

def execStart (s : State) : Host.Outcome State Fault Refusal := .next (commandStart s)

/-- STOP on a RUNNING or STALLED line (R55). -/
def stopLine (s : State) : State :=
  setLine .stopped .stop { s with transport := { s.transport with stall := none } }

/-- STOP (R55). -/
def commandStop : State → State :=
  whenIdle .stop fun s =>
    match s.transport.line with
    | .running | .stalled => ackTaken .stop 0#32 (stopLine s)
    | .stopped => ackTaken .stop 0#32 s

def execStop (s : State) : Host.Outcome State Fault Refusal := .next (commandStop s)

/-! ### PURGE (R120) -/

/-- Every letter leaves in list order, each departure completed before the next (R120). -/
def purgeLetters : List Letter → State → State
  | [], s => s
  | l :: rest, s => purgeLetters rest (depart .purged l (s.setLetters rest))

/-- PURGE (R120). -/
def commandPurge : State → State :=
  whenIdle .purge fun s =>
    ackTaken .purge (BitVec.ofNat 32 s.transitCount) (purgeLetters s.transit.letters s)

def execPurge (s : State) : Host.Outcome State Fault Refusal := .next (commandPurge s)

/-! ### Entries (R58 to R61) -/

/-- The check of R60 that refuses an entry, with the 32-bit argument of its notice. -/
def State.entryRefusal (s : State) (e : Option Entry) (tag : Tag) : Option (EntryRefusal × Word) :=
  if s.transport.line = .stopped then some (.stopped, 0#32)
  else if e.isNone then some (.badEntry, 0#32)
  else if s.transitCount = Config.maxTransit ∨ s.occupancySum = Config.maxSum then
    some (.full, field s.transitCount 0 ||| field s.retireCount 8)
  else
    match s.transit.lastTag.filter (fun t => !tagOlder t tag), s.letterBySlot (slotOf tag) with
    | some t, _ => some (.tagOrder, t.setWidth 32)
    | none, some l => some (.duplicate, l.tag.setWidth 32)
    | none, none => none

/-- CLOSE: the gap count is present and less than the minimum gap (R61). -/
def State.entryClose (s : State) : Bool :=
  match s.transit.gap with
  | some g => decide (g < s.layoutNat Layout.minGap)
  | none => false

/-- The letter record of a taken entry (R61). -/
def State.newLetter (s : State) (e : Entry) : Letter where
  tag := e.tag
  entryPos := s.transport.position
  lengthClass := e.lengthClass
  double := e.double
  close := s.entryClose
  state := .collecting
  reads := []
  reported := Vector.replicate 4 false
  overrun := false
  lateReads := 0
  accountKey := none
  reasonClass := 0
  forwardPresent := false

/-- An entry into an empty list restarts the stall monitor of a RUNNING line (R61, step 5). -/
def restartStallIfFirst (s : State) : State :=
  if s.transitCount = 1 then restartStall s else s

/-- An entry is taken (R61). -/
def takeEntry (e : Entry) (s : State) : State :=
  restartStallIfFirst (evalOccupancy { s with transit := { s.transit with
    letters := s.transit.letters ++ [s.newLetter e], lastTag := some e.tag, gap := some 0 } })

/-- A complete entry is checked, and taken or refused (R60, R61). -/
def completeEntry (first second : Word) (s : State) : State :=
  match s.entryRefusal (entryOf first second) (entryTag second), entryOf first second with
  | none, some e => takeEntry e s
  | some (c, arg), _ =>
    raise { kind := .untrackedEntry, cause := c.code, arg16 := entryTag second, arg32 := arg } s
  | none, none => s

def setAssembly (a : EntryAssembly) (s : State) : State :=
  { s with transit := { s.transit with assembly := a } }

/-- The INDUCTION_FRAMING notice of a write to record `index` (R58). -/
def framingNotice (c : FramingBreak) (index : Nat) (held : Option Nat) (s : State) : State :=
  raise { kind := .inductionFraming, cause := c.code, arg16 := BitVec.ofNat 16 index
          arg32 := match held with
            | some i => BitVec.ofNat 32 i
            | none => 0xFFFFFFFF#32 } s

/-- The entry assembly takes an induction ring snoop (R58). -/
def inductionSnoop (offset : Nat) (data : Word) (enables : Enables) (s : State) : State :=
  let index := offset / 2
  let isFirst := decide (offset % 2 = 0)
  match s.transit.assembly, fullWrite enables, isFirst with
  | .waiting, true, true => setAssembly (.holding index data) s
  | .waiting, true, false => framingNotice .outOfSequence index none s
  | .waiting, false, _ => framingNotice .partialWrite index none s
  | .holding i _, true, true =>
    framingNotice .outOfSequence index (some i) (setAssembly (.holding index data) s)
  | .holding i first, true, false =>
    if index = i then completeEntry first data (setAssembly .waiting s)
    else framingNotice .outOfSequence index (some i) (setAssembly .waiting s)
  | .holding i _, false, _ =>
    framingNotice .partialWrite index (some i) (setAssembly .waiting s)

/-- The word offset lies in the induction ring of the layout in force (R6). -/
def State.inInductionRing (s : State) (offset : Nat) : Bool :=
  match s.plan.layout with
  | some l => decide (offset < 2 * l.inductionCount)
  | none => false

/-- INDUCTION_RING_WRITE (R58): a snoop of a word of the ring; there is none outside it (log 5). -/
def inductionRingWrite (offset : Nat) (data : Word) (enables : Enables) (s : State) : State :=
  if !s.resetLow && s.inInductionRing offset then inductionSnoop offset data enables s else s

def execInductionRingWrite (offset : Nat) (data : Word) (enables : Enables) (s : State) :
    Host.Outcome State Fault Refusal :=
  .next (inductionRingWrite offset data enables s)

end Sys2Proof.Machine
end

