-- ==== Sys2Proof/Machine/StationUnit.lean ====
section
/-! DEFINITION. The station unit (spec/04_read_stations.md): the ring snoop with its assembly, the record checks, framing, the taking of a record, and the meanings of the station rows. -/

namespace Sys2Proof.Machine

/-! ### Station notices (R81) -/

/-- A station context takes a new value and a STATION_STATE notice reports it, with the previous framing in argument bits 1:0 and the previous expectation in bit 4 (R81, 10.7). -/
def changeStation (st : StationIx) (x : Station) (cause : StationCause) (arg : Word)
    (s : State) : State :=
  raise { kind := .stationState, source := BitVec.ofNat 8 st.val
          result := BitVec.ofNat 4 x.framing.code, cause := cause.code
          arg16 := BitVec.ofNat 16
            ((s.station st).framing.code + 16 * (s.station st).expectation.code)
          arg32 := arg } (s.setStation st x)

/-- A RECORD_REJECT notice (R81). -/
def recordReject (st : StationIx) (cause : RejectCause) (arg16 : BitVec 16) (arg32 : Word)
    (s : State) : State :=
  raise { kind := .recordReject, source := BitVec.ofNat 8 st.val, cause := cause.code
          arg16 := arg16, arg32 := arg32 } s

/-- The reject counter rises by 1 (R71, R75, R79, R80). -/
def Station.rejected (x : Station) : Station :=
  { x with rejects := satSucc Config.maxCount16 x.rejects }

/-- The lock ends: the framing goes to HUNT and the fault run returns to 0 (R75, R80). -/
def loseLock (st : StationIx) (cause : StationCause) (s : State) : State :=
  changeStation st { s.station st with framing := .hunt, faultRun := 0 } cause 0#32 s

/-! ### Taking a record (R82 to R85) -/

/-- A read joins a read set; into a full set it goes in the place of the fourth read, with the overrun flag (R84). -/
def Letter.joinRead (r : Read) (l : Letter) : Letter :=
  if l.reads.length < Config.maxReads then { l with reads := l.reads ++ [r] }
  else { l with reads := l.reads.take (Config.maxReads - 1) ++ [r], overrun := true }

/-- A read is delivered as the letter's state gives (R84). -/
def Letter.takeRead (r : Read) (l : Letter) : Letter :=
  match l.state with
  | .collecting | .awaitPlan => l.joinRead r
  | .decided _ => { l with lateReads := satSucc Config.maxCount4 l.lateReads }

/-- The station joins the letter's reported set (R85). -/
def Letter.report (st : StationIx) (l : Letter) : Letter :=
  { l with reported := l.reported.set st.val true st.isLt }

/-- The letter of a tag is changed by `f` (R66). -/
def State.changeLetter (s : State) (t : Tag) (f : Letter → Letter) : State :=
  s.setLetters (modifyFirst (fun l => l.tag == t) f s.transit.letters)

/-- The read of a record, if it builds one, is delivered to the letter of its tag (R82, R84). -/
def deliverRead (st : StationIx) (ws : List Word) (s : State) : State :=
  match recordRead st s.plan.minGrade ws with
  | some r => s.changeLetter (recordTag ws) (Letter.takeRead r)
  | none => s

/-- A COLLECTING letter of this tag is tested for its early condition, and resolved where it holds (R85, R95). -/
def testLetter (t : Tag) (s : State) : State := s.resolveOne fun l => l.tag == t && s.readyNow l

/-- What a LAST flag does (R85). -/
def reportLast (st : StationIx) (t : Tag) (s : State) : State :=
  testLetter t
    ((s.changeLetter t (Letter.report st)).setStation st { s.station st with misses := 0 })

/-- A record is taken (R82, R84, R85). -/
def takeRecord (st : StationIx) (ws : List Word) (s : State) : State :=
  let s := s.setStation st { s.station st with lastTag := some (recordTag ws) }
  let s := deliverRead st ws s
  if recordLast ws then reportLast st (recordTag ws) s else s

/-! ### Checking and framing a complete record (R76 to R80) -/

/-- The record is older than the last accepted tag of a LOCKED station (R76, check 4). -/
def Station.outOfOrder (x : Station) (t : Tag) : Bool :=
  match x.framing, x.lastTag with
  | .locked, some last => tagOlder t last
  | .locked, none | .hunt, _ | .off, _ => false

/-- The check of R76 that rejects a record of station `st`. -/
def State.recordFault (s : State) (st : StationIx) (ws : List Word) : Option RejectCause :=
  if !recordCrcGood ws then some .crc
  else if recordMalformed st ws then some .badRecord
  else if (s.letterByTag (recordTag ws)).isNone then some .stray
  else if (s.station st).outOfOrder (recordTag ws) then some .order
  else none

/-- The 32-bit argument of a RECORD_REJECT for the record of slot `slot` (R81). -/
def rejectArg (cause : RejectCause) (slot : Nat) (x : Station) : Word :=
  match cause, x.lastTag with
  | .order, some t => t.setWidth 32
  | .order, none | .align, _ | .crc, _ | .badRecord, _ | .stray, _ => BitVec.ofNat 32 slot

/-- The fault run rises, and at 3 the lock ends (R80). -/
def raiseFaultRun (st : StationIx) (s : State) : State :=
  let x := { s.station st with faultRun := (s.station st).faultRun + 1 }
  if Config.faultRunLimit ≤ x.faultRun then loseLock st .faultRun (s.setStation st x)
  else s.setStation st x

/-- A complete record is rejected (R79, R80). -/
def rejectRecord (st : StationIx) (slot : Nat) (ws : List Word) (cause : RejectCause)
    (s : State) : State :=
  let s := s.setStation st (s.station st).rejected
  match (s.station st).framing with
  | .locked =>
    raiseFaultRun st
      (recordReject st cause (recordTag ws) (rejectArg cause slot (s.station st)) s)
  | .hunt | .off => s

/-- A good record locks a HUNT station, and returns the fault run of a LOCKED one to 0 (R79, R80). -/
def frameGood (st : StationIx) (t : Tag) (s : State) : State :=
  match (s.station st).framing with
  | .hunt =>
    changeStation st { s.station st with framing := .locked, faultRun := 0 } .lock
      (t.setWidth 32) s
  | .locked | .off => s.setStation st { s.station st with faultRun := 0 }

/-- A complete record is checked, framed, and taken or rejected (R74, R76, R79, R80). -/
def completeRecord (st : StationIx) (slot : Nat) (ws : List Word) (s : State) : State :=
  match s.recordFault st ws with
  | some cause => rejectRecord st slot ws cause s
  | none => takeRecord st ws (frameGood st (recordTag ws) s)

/-! ### The assembly (R73 to R75) -/

/-- The assembly after a write that begins a record, or does not (R74, R75). -/
def startAssembly (offset : Nat) (data : Word) (enables : Enables) : RecordAssembly :=
  if fullWrite enables = true ∧ offset % 8 = 0 then .collecting (offset / 8) [data] else .seek

/-- The ring word that a collecting context expects (R74, R81). -/
def expectedOffset (slot : Nat) (ws : List Word) : Nat := 8 * slot + ws.length

/-- An ALIGN reject (R75). -/
def alignReject (st : StationIx) (expected offset : Nat) (data : Word) (enables : Enables)
    (s : State) : State :=
  let x := { (s.station st).rejected with assembly := startAssembly offset data enables }
  let s := s.setStation st x
  match x.framing with
  | .locked =>
    loseLock st .align
      (recordReject st .align (BitVec.ofNat 16 offset) (BitVec.ofNat 32 expected) s)
  | .hunt | .off => s

/-- The slots of a station's ring under the layout in force; 0 where there is none (R74). -/
def State.stationSlots (s : State) (st : StationIx) : Nat :=
  match s.plan.layout with
  | some l => if l.stationPresent st then l.stationCount st else 0
  | none => 0

/-- The expected word arrives: it is collected, and word 7 completes the record (R74). -/
def collectWord (st : StationIx) (slot : Nat) (ws : List Word) (data : Word) (s : State) : State :=
  if ws.length < 7 then
    s.setStation st { s.station st with assembly := .collecting slot (ws ++ [data]) }
  else
    completeRecord st slot (ws ++ [data])
      (s.setStation st { s.station st with
        assembly := .collecting ((slot + 1) % s.stationSlots st) [] })

/-- A snooped write reaches the assembly of a context in HUNT or LOCKED (R74, R75). -/
def assembleWord (st : StationIx) (offset : Nat) (data : Word) (enables : Enables)
    (s : State) : State :=
  match (s.station st).assembly with
  | .seek =>
    s.setStation st { s.station st with assembly := startAssembly offset data enables }
  | .collecting slot ws =>
    if fullWrite enables = true ∧ offset = expectedOffset slot ws then
      collectWord st slot ws data s
    else alignReject st (expectedOffset slot ws) offset data enables s

/-- Station context `st` takes a snoop of its ring; OFF discards it (R73). -/
def stationSnoop (st : StationIx) (offset : Nat) (data : Word) (enables : Enables)
    (s : State) : State :=
  match (s.station st).framing with
  | .off => s
  | .hunt | .locked => assembleWord st offset data enables s

/-- STATION_RING_WRITE (R73, R74): a snoop of a word of the ring; there is none outside it (log 5). -/
def stationRingWrite (st : StationIx) (offset : Nat) (data : Word) (enables : Enables)
    (s : State) : State :=
  if !s.resetLow && decide (offset < 8 * s.stationSlots st) then
    stationSnoop st offset data enables s
  else s

def execStationRingWrite (st : StationIx) (offset : Nat) (data : Word) (enables : Enables)
    (s : State) : Host.Outcome State Fault Refusal :=
  .next (stationRingWrite st offset data enables s)

/-! ### Station commands (R89 to R92) -/

/-- The station is absent in the layout in force, or no layout is in force (R89). -/
def State.stationAbsent (s : State) (st : StationIx) : Bool :=
  match s.plan.layout with
  | some l => !l.stationPresent st
  | none => true

/-- A station command: BAD_ARG, or its own effect (R89). -/
def stationCommandOn (c : Command) (st : StationIx) (own : State → State) : State → State :=
  whenIdle c fun s => if s.stationAbsent st then refuse c .badArg s else own s

/-- The OK acknowledgment of a station command carries the station (R159). -/
def ackStation (c : Command) (st : StationIx) (s : State) : State :=
  ackTaken c (BitVec.ofNat 32 st.val) s

/-- A context that STATION_DISABLE takes to OFF (R90). -/
def Station.disabled (x : Station) : Station :=
  { x with framing := .off, assembly := .seek, faultRun := 0, lastTag := none }

/-- A context that STATION_ENABLE or STATION_RESTART sends to HUNT (R91, R92). -/
def Station.hunting (x : Station) : Station :=
  { x with framing := .hunt, expectation := .expected, assembly := .seek, misses := 0
           faultRun := 0, lastTag := none }

/-- The test of every COLLECTING letter, where the disabled station was EXPECTED (R90). -/
def testIfExpected (e : Expectation) (s : State) : State :=
  match e with
  | .expected => resolveReady s
  | .degraded => s

/-- STATION_DISABLE of a station in HUNT or LOCKED (R90, 1). -/
def disableStation (st : StationIx) (s : State) : State :=
  testIfExpected (s.station st).expectation
    (changeStation st (s.station st).disabled .disable 0#32 s)

/-- STATION_ENABLE of an OFF station, or STATION_RESTART of another (R91, 1; R92, 1). -/
def huntStation (st : StationIx) (cause : StationCause) (s : State) : State :=
  resolveReady (changeStation st (s.station st).hunting cause 0#32 s)

/-- STATION_DISABLE (R90). -/
def commandStationDisable (st : StationIx) : State → State :=
  stationCommandOn (.stationDisable st) st fun s =>
    match (s.station st).framing with
    | .hunt | .locked => ackStation (.stationDisable st) st (disableStation st s)
    | .off => ackStation (.stationDisable st) st s

def execStationDisable (st : StationIx) (s : State) : Host.Outcome State Fault Refusal :=
  .next (commandStationDisable st s)

/-- STATION_ENABLE (R91). -/
def commandStationEnable (st : StationIx) : State → State :=
  stationCommandOn (.stationEnable st) st fun s =>
    match (s.station st).framing with
    | .off => ackStation (.stationEnable st) st (huntStation st .enable s)
    | .hunt | .locked => refuse (.stationEnable st) .badState s

def execStationEnable (st : StationIx) (s : State) : Host.Outcome State Fault Refusal :=
  .next (commandStationEnable st s)

/-- STATION_RESTART (R92). -/
def commandStationRestart (st : StationIx) : State → State :=
  stationCommandOn (.stationRestart st) st fun s =>
    match (s.station st).framing with
    | .hunt | .locked => ackStation (.stationRestart st) st (huntStation st .restart s)
    | .off => refuse (.stationRestart st) .badState s

def execStationRestart (st : StationIx) (s : State) : Host.Outcome State Fault Refusal :=
  .next (commandStationRestart st s)

end Sys2Proof.Machine
end

