-- ==== Sys2Proof/Machine/GateWindow.lean ====
section
/-! DEFINITION. The dispatch unit (spec/06_dispatch_at_the_gate_window.md): the answer and the effect of a read in the gate window, and the meaning of GATE_DISPATCH. It holds no state (R110). -/

namespace Sys2Proof.Machine

/-- The letter of a slot is removed from the list, from any position (R63, R112, R114). -/
def removeLetter (slot : BitVec 8) (s : State) : State :=
  s.setLetters (s.transit.letters.eraseP fun l => slotOf l.tag == slot)

/-- The word that answers a dispatch (R112, R114, R115). -/
def dispatchWord (slot : BitVec 8) (l : Option Letter) : GateWord :=
  match l with
  | some l =>
    match l.state with
    | .decided d => decisionWord d slot
    | .collecting | .awaitPlan => { valid := true, cause := .lateDecision, slot := slot }
  | none => { valid := true, untracked := true, slot := slot }

/-- A letter found at a dispatch lands and departs: in its final pocket, or late in pocket 0 (R112, R114). -/
def dispatchLetter (slot : BitVec 8) (l : Letter) (s : State) : State :=
  match l.state with
  | .decided d =>
    depart .dispatched l (raiseFill d.final (l.tag.setWidth 32) (removeLetter slot s))
  | .collecting | .awaitPlan =>
    depart .lateDecision l (raiseFill 0 (l.tag.setWidth 32) (removeLetter slot s))

/-- The UNTRACKED_DISPATCH notice carries the gate master, the slot and pocket 0's new fill (R115). -/
def untrackedNotice (slot : BitVec 8) (master : MasterNo) (s : State) : State :=
  raise { kind := .untrackedDispatch, source := master.setWidth 8, arg16 := slot.setWidth 16
          arg32 := BitVec.ofNat 32 (s.pocket 0).fill } s

/-- A dispatch that finds no letter (R115). -/
def dispatchUntracked (slot : BitVec 8) (master : MasterNo) (s : State) : State :=
  untrackedNotice slot master (raiseFill 0 0xFFFFFFFF#32 s)

/-- The effect of a dispatch of slot `slot` by the gate master `master` (R112 to R115). -/
def dispatch (slot : BitVec 8) (master : MasterNo) (s : State) : State :=
  match s.letterBySlot slot with
  | some l => dispatchLetter slot l s
  | none => dispatchUntracked slot master s

/-- The word that answers a peek (R116). -/
def peekWord (slot : BitVec 8) (l : Option Letter) : GateWord :=
  match l with
  | some l =>
    match l.state with
    | .decided d => decisionWord d slot
    | .collecting => { pending := true, slot := slot }
    | .awaitPlan => { pending := true, await := true, slot := slot }
  | none => { empty := true, slot := slot }

/-- The gate master of the layout in force (R110). -/
def State.gateMaster (s : State) : Option MasterNo :=
  s.plan.layout.map fun l => BitVec.ofNat 3 l.gateMaster

/-- The word that answers a read of slot `slot` by `master` (R110). -/
def gateAnswer (slot : BitVec 8) (master : MasterNo) (s : State) : Word :=
  if s.gateMaster = some master then (dispatchWord slot (s.letterBySlot slot)).word
  else (peekWord slot (s.letterBySlot slot)).word

/-- The effect of a read of slot `slot` by `master`: a peek changes nothing (R110, R116). -/
def gateEffect (slot : BitVec 8) (master : MasterNo) (s : State) : State :=
  if s.gateMaster = some master then dispatch slot master s else s

/-- The backplane port answers a read with OK and a word (R1). -/
def respondWord (master : MasterNo) (w : Word) (s : State) : State :=
  { s with backplane := { s.backplane with response := some ⟨master, some (some w)⟩ } }

/-- A read of the gate window is one event: its answer and its effect both come from the list as it stands (R13). -/
def gateRead (slot : BitVec 8) (master : MasterNo) (s : State) : State :=
  respondWord master (gateAnswer slot master s) (gateEffect slot master s)

/-- GATE_DISPATCH (R112 to R115): the gate master's read of a slot, where the backplane port can take it (log 4, log 6). -/
def gateDispatch (slot : BitVec 8) (s : State) : State :=
  if s.resetLow || s.backplane.busy.isSome then s
  else
    match s.gateMaster with
    | some master => gateRead slot master s
    | none => s

def execGateDispatch (slot : BitVec 8) (s : State) : Host.Outcome State Fault Refusal :=
  .next (gateDispatch slot s)

end Sys2Proof.Machine
end

