-- ==== Sys2Proof/Machine/NoticeUnit.lean ====
section
/-! DEFINITION. The notice unit (spec/09_commands_and_notices.md): the notice ring, ATTN, the consumer index, the layout application, and the meanings of its rows. -/

namespace Sys2Proof.Machine

/-! ### ATTN (R167, R168) -/

def setAttn (level : Bool) (s : State) : State :=
  { s with notice := { s.notice with attn := level } }

def setArmed (armed : Bool) (s : State) : State :=
  { s with notice := { s.notice with armed := armed } }

/-- ATTN at the acceptance of an entry (R167; R168, 1). -/
def attnAtEntry (s : State) : State :=
  match s.notice.mode with
  | .level => setAttn s.levelAttn s
  | .first => if s.notice.armed then setArmed false (setAttn true s) else s

/-- ATTN at a valid consumer write (R167; R168, 2). -/
def attnAtConsumer (s : State) : State :=
  match s.notice.mode with
  | .level => setAttn s.levelAttn s
  | .first => setArmed true (setAttn false s)

/-- The mode is set, by SET_ATTN_MODE or by a load (R160; R167; R168, 3). -/
def takeAttnMode (mode : AttnMode) (s : State) : State :=
  let s := { s with notice := { s.notice with mode := mode, armed := true } }
  match mode with
  | .level => setAttn s.levelAttn s
  | .first => setAttn false s

/-! ### Writing entries (R163, R165) -/

/-- The producer index after an accepted entry (R163). -/
def State.nextProducer (s : State) : Nat := (s.notice.producer + 1) % s.plan.ringSize

/-- Memory accepts word 3: the entry leaves the FIFO, the producer index advances, ATTN is evaluated, and the next entry is begun where the conditions hold (R163). -/
def entryAccepted (s : State) : State :=
  noticePump (attnAtEntry
    { s with notice := { s.notice with
        fifo := s.notice.fifo.tail, producer := s.nextProducer, writing := none } })

/-- Memory accepts the notice word in progress (R163). -/
def noticeWordAccepted (s : State) : State :=
  match s.notice.writing with
  | some k => if k = 3 then entryAccepted s else presentNoticeWord (k + 1) s
  | none => s

/-- Memory answers a notice word with ERROR: the ring goes to FAULT (R165). -/
def faultRing (addr : Word) (s : State) : State :=
  raise { kind := .ringFault, cause := 1#4, arg16 := BitVec.ofNat 16 s.notice.producer
          arg32 := addr }
    (setMemoryFlag { s with notice := { s.notice with ringFault := true, writing := none } })

/-- NOTICE_WORD_WRITE_DONE (R163, R165, R166): nothing where memory holds no notice word (log 13); an abandoned word's answer is discarded. -/
def noticeWordWriteDone (answer : WriteAnswer) (s : State) : State :=
  match s.port with
  | some g =>
    if g.job = .noticeWord then
      if g.abandoned then freePort s
      else
        match answer with
        | .ok => noticeWordAccepted (freePort s)
        | .error => faultRing g.access.addr (freePort s)
    else s
  | none => s

def execNoticeWordWriteDone (answer : WriteAnswer) (s : State) :
    Host.Outcome State Fault Refusal :=
  .next (noticeWordWriteDone answer s)

/-- A notice write in progress is abandoned: its word is withdrawn, or carried to its end at memory with its answer discarded, and the entry stays at the head of the FIFO (R19; R166, step 1). -/
def abandonNoticeWrite (s : State) : State :=
  { s.withdrawNotice with notice := { s.notice with writing := none } }

/-! ### The consumer index (R164) -/

/-- A consumer write that makes the ring full stops the writing of notices, and one that makes room presents word 0 of the head entry (R164): an entry whose words are being written is abandoned, so that no entry is accepted into a full ring and every acceptance leaves the indices different (R167, R169). R164 does not say what becomes of that entry: DESIGN CHOICE (log 22). -/
def stopIfFull (s : State) : State :=
  if s.ringRoom || s.notice.writing.isNone then s else abandonNoticeWrite s

/-- The notice unit takes a snoop of the consumer index (R164). -/
def consumerSnoop (data : Word) (enables : Enables) (s : State) : State :=
  if fullWrite enables = true ∧ data.toNat < s.plan.ringSize then
    noticePump (stopIfFull (attnAtConsumer
      { s with notice := { s.notice with consumer := data.toNat } }))
  else { s with notice := { s.notice with badIndex := true } }

/-- NOTICE_CONSUMER_INDEX (R164). -/
def noticeConsumerIndex (data : Word) (enables : Enables) (s : State) : State :=
  if s.resetLow then s else consumerSnoop data enables s

def execNoticeConsumerIndex (data : Word) (enables : Enables) (s : State) :
    Host.Outcome State Fault Refusal :=
  .next (noticeConsumerIndex data enables s)

/-! ### A layout application (R166) -/

/-- ATTN at a layout application: FIRST mode keeps it (R167; R168, 3). -/
def attnAtLayout (s : State) : State :=
  match s.notice.mode with
  | .level => setAttn s.levelAttn s
  | .first => s

/-- The notice ring of the layout now in force is taken, from entry 0 (R166). -/
def applyNoticeRing (s : State) : State :=
  let s := abandonNoticeWrite s
  noticePump (attnAtLayout
    { s with notice := { s.notice with ringFault := false, producer := 0, consumer := 0 } })

/-! ### The three commands of R160 -/

def setMask (mask : BitVec 8) (s : State) : State :=
  { s with notice := { s.notice with mask := mask } }

/-- SET_NOTICE_MASK: the new mask governs its own acknowledgment (R160, 1). -/
def commandSetNoticeMask (mask : BitVec 8) : State → State :=
  whenIdle (.setNoticeMask mask) fun s =>
    ackTaken (.setNoticeMask mask) (mask.setWidth 32) (setMask mask s)

def execSetNoticeMask (mask : BitVec 8) (s : State) : Host.Outcome State Fault Refusal :=
  .next (commandSetNoticeMask mask s)

/-- SET_ATTN_MODE (R160, 2). -/
def commandSetAttnMode (mode : AttnMode) : State → State :=
  whenIdle (.setAttnMode mode) fun s =>
    ackTaken (.setAttnMode mode) (BitVec.ofNat 32 mode.code) (takeAttnMode mode s)

def execSetAttnMode (mode : AttnMode) (s : State) : Host.Outcome State Fault Refusal :=
  .next (commandSetAttnMode mode s)

/-- A context whose reject counter is returned to 0 (R72). -/
def Station.clearRejects (x : Station) : Station := { x with rejects := 0 }

/-- STATUS_CLEAR clears the lost count, the four latched flags and every reject counter (R160, 3). -/
def clearStatus (s : State) : State :=
  { s with
    notice := { s.notice with
      lostCount := 0, lost := false, memory := false, guard := false, badIndex := false }
    stations := s.stations.map Station.clearRejects }

/-- STATUS_CLEAR: its acknowledgment, raised after the clear, carries the lost count before it (R160, 3). -/
def commandStatusClear : State → State :=
  whenIdle .statusClear fun s =>
    ackTaken .statusClear (BitVec.ofNat 32 s.notice.lostCount) (clearStatus s)

def execStatusClear (s : State) : Host.Outcome State Fault Refusal := .next (commandStatusClear s)

end Sys2Proof.Machine
end

