-- ==== Sys2Proof/Machine/PlanLoader.lean ====
section
/-! DEFINITION. The plan loader (spec/02_sort_plans.md): the load with its reads, block checks, failure and completion, the layout application, and the meanings of LOAD_PLAN, LOAD_ABORT and PLAN_READ_DONE. -/

namespace Sys2Proof.Machine

/-! ### Reading the image (R34, R35) -/

/-- The address of the word the load reads next (R24, R35). -/
def Load.wordAddr (ld : Load) : Word :=
  ld.image + BitVec.ofNat 32 (64 * ld.block + 4 * ld.words.length)

/-- The load goes on from `ld`: the next word is read (R35). -/
def readPlanWord (ld : Load) (s : State) : State :=
  { s with plan := { s.plan with load := some ld } }.presentPlan (ownRead ld.wordAddr)

/-- A load as it is accepted (R34). -/
def Load.begin (arg : BitVec 24) (sweepCancelled : Bool) : Load where
  image := arg.setWidth 32 <<< 6
  block := 0
  words := []
  layout := none
  changed := false
  params := none
  records := []
  rules := []
  sweepCancelled := sweepCancelled

/-- The acceptance of a LOAD_PLAN; the rule table, now unusable, is held as empty (R34). -/
def acceptLoad (arg : BitVec 24) (s : State) : State :=
  readPlanWord (Load.begin arg s.sweepOpen)
    { s with
      cmd := { s.cmd with executing := true }
      plan := { s.plan with state := .loading, rules := [] }
      sweep := .idle }

/-- LOAD_PLAN (R34). -/
def commandLoadPlan (arg : BitVec 24) : State → State := whenIdle (.loadPlan arg) (acceptLoad arg)

def execLoadPlan (arg : BitVec 24) (s : State) : Host.Outcome State Fault Refusal :=
  .next (commandLoadPlan arg s)

/-! ### The end of a load (R37, R38) -/

/-- The load's acknowledgment, with the command state back at IDLE (R37, steps 5 and 6; R38, steps 6 and 7). -/
def ackLoad (r : ResultCode) (cause : Option LoadCause) (kept : Bool) (arg : Word)
    (s : State) : State :=
  acknowledge ⟨0x01#8, r, kept, cause, arg⟩ { s with cmd := { s.cmd with executing := false } }

/-- A load fails (R37). -/
def failLoad (ld : Load) (cause : LoadCause) (detail : Word) (s : State) : State :=
  ackLoad .loadFailed (some cause) ld.sweepCancelled detail
    (resolveAwaiting { s with plan := { s.plan with state := .invalid, load := none } })

/-- A station context under a new layout (R39, 3). -/
def Station.placed (x : Station) (present : Bool) : Station :=
  { x with
    framing := if present then .hunt else .off
    expectation := .expected
    assembly := .seek
    misses := 0
    faultRun := 0
    lastTag := none }

/-- The four contexts under a new layout (R39, 3). -/
def placeStations (l : Layout) (x : Vector Station 4) : Vector Station 4 :=
  Vector.ofFn fun i => x[i].placed (l.stationPresent i)

/-- The pocket of a configuration record under a new layout (R39, 4). -/
def PocketRecord.fresh (r : PocketRecord) : Pocket where
  capacity := some r.capacity
  threshold := r.threshold
  partner := r.partner
  state := if r.opens then .opened else .disabled
  fill := 0
  inFlight := 0
  batch := 1

/-- The pocket table under a new layout: pockets from P on take their reset values (R39, 4). -/
def placePockets (records : List PocketRecord) : Pockets :=
  Vector.ofFn fun p =>
    match records[p.val]? with
    | some r => r.fresh
    | none => Pocket.reset

/-- A pocket whose configuration a load replaces, its run state kept (R40). -/
def Pocket.reconfigured (x : Pocket) (r : PocketRecord) : Pocket :=
  { x with capacity := some r.capacity, threshold := r.threshold, partner := r.partner }

/-- The pocket table under a kept layout (R40). -/
def reconfigurePockets (records : List PocketRecord) (pk : Pockets) : Pockets :=
  Vector.ofFn fun p =>
    match records[p.val]? with
    | some r => pk[p].reconfigured r
    | none => pk[p]

/-- A changed layout is applied (R39). -/
def applyLayout (l : Layout) (records : List PocketRecord) (s : State) : State :=
  applyNoticeRing
    { s with
      plan := { s.plan with layout := some l }
      transit := { s.transit with assembly := .waiting, lastTag := none, gap := none }
      stations := placeStations l s.stations
      pockets := placePockets records }

/-- Step 2 of a completion: the layout is applied or kept, and FEED_HOLD is evaluated for pocket 0's new fill and capacity (R38 to R40, R56; log 12). -/
def placeLayout (ld : Load) (l : Layout) (s : State) : State :=
  evalFeedHold
    (if ld.changed then applyLayout l ld.records s
     else { s with pockets := reconfigurePockets ld.records s.pockets })

/-- Step 3 of a completion: the rule table, the parameters and the plan identifier, then the mask and the mode for the notice unit (R38). -/
def handOver (p : Params) (rules : List Rule) (s : State) : State :=
  takeAttnMode p.attnMode (setMask p.noticeMask
    { s with plan := { s.plan with
        rules := rules, planId := p.planId, defaultPocket := p.defaultPocket
        noReadPocket := p.noReadPocket, minGrade := p.minGrade, missLimit := p.missLimit } })

/-- A load with block 0 and block 1 completes (R38). -/
def completeLoadWith (ld : Load) (l : Layout) (p : Params) (s : State) : State :=
  let s := placeLayout ld l { s with plan := { s.plan with load := none } }
  let s := handOver p ld.rules s
  ackLoad .ok none ld.sweepCancelled p.planId
    (resolveAwaiting { s with plan := { s.plan with state := .valid } })

/-- The layout and parameters of a load that has passed blocks 0 and 1. -/
def Load.blocksKnown (ld : Load) : Option (Layout × Params) :=
  match ld.layout, ld.params with
  | some l, some p => some (l, p)
  | some _, none | none, _ => none

/-- The blocks of the image, as far as the load has learnt them: the plan-image window covers that many (R8). -/
def Load.coveredBlocks (ld : Load) : Nat :=
  match ld.layout, ld.params with
  | some l, some p => imageBlocks l.pocketCount p.ruleCount
  | some l, none => 2 + pocketBlocks l.pocketCount
  | none, _ => 1

/-- A block has passed: the next one is read, or after the last one the load completes (R35). -/
def blockPassed (ld : Load) (s : State) : State :=
  match ld.blocksKnown with
  | some (l, p) =>
    if ld.block + 1 = ld.coveredBlocks then completeLoadWith ld l p s
    else readPlanWord { ld with block := ld.block + 1, words := [] } s
  | none => readPlanWord { ld with block := ld.block + 1, words := [] } s

/-! ### Checking a block (R26 to R31) -/

/-- The layout lock: the line is not STOPPED or a letter is in the list (R28). -/
def State.layoutLocked (s : State) : Bool :=
  s.transport.line != .stopped || !s.transit.letters.isEmpty

/-- Block 0 is checked, compared and locked (R27, R28). -/
def checkLayoutBlock (ld : Load) (bs : List Byte) (s : State) : State :=
  let l : Layout := ⟨bs.take 60⟩
  match firstFailure (l.checks s.cb s.master) with
  | some f => failLoad ld .header (BitVec.ofNat 32 f.code) s
  | none =>
    let changed := s.plan.layout != some l
    if changed && s.layoutLocked then failLoad ld .layoutLocked 0#32 s
    else blockPassed { ld with layout := some l, changed := changed } s

/-- Block 1 is checked (R29). -/
def checkParamBlock (ld : Load) (l : Layout) (bs : List Byte) (s : State) : State :=
  match firstFailure (paramChecks bs l.pocketCount) with
  | some f => failLoad ld .header (BitVec.ofNat 32 f.code) s
  | none => blockPassed { ld with params := some (paramsOf bs) } s

/-- Pocket block `j` is checked (R30). -/
def checkPocketBlock (ld : Load) (l : Layout) (j : Nat) (bs : List Byte) (s : State) : State :=
  match pocketBlockFailure bs j l.pocketCount with
  | some i => failLoad ld .pocketRecord (BitVec.ofNat 32 i) s
  | none =>
    blockPassed { ld with records := ld.records ++ pocketBlockRecords bs j l.pocketCount } s

/-- Rule block `j` is checked (R31). -/
def checkRuleBlock (ld : Load) (l : Layout) (p : Params) (j : Nat) (bs : List Byte)
    (s : State) : State :=
  match ruleBlockFailure bs j l.pocketCount p.ruleCount with
  | some i => failLoad ld .ruleRecord (BitVec.ofNat 32 i) s
  | none =>
    blockPassed { ld with rules := ld.rules ++ ruleBlockRules bs j l.pocketCount p.ruleCount } s

/-- The payload of a block is checked as its kind requires (R24, R26). -/
def checkPayload (ld : Load) (bs : List Byte) (s : State) : State :=
  match ld.layout, ld.params with
  | some l, some p =>
    if ld.block < 2 + pocketBlocks l.pocketCount then
      checkPocketBlock ld l (ld.block - 2) bs s
    else checkRuleBlock ld l p (ld.block - 2 - pocketBlocks l.pocketCount) bs s
  | some l, none => checkParamBlock ld l bs s
  | none, _ => checkLayoutBlock ld bs s

/-- The CRC of a block holds (R25, R26). -/
def blockCrcGood (bs : List Byte) : Bool := decide ((crc16 (bs.take 62)).toNat = le16At bs 62)

/-- A block whose sixteenth word has arrived is checked (R26). -/
def checkBlock (ld : Load) (s : State) : State :=
  let bs := wordsBytes ld.words
  if !blockCrcGood bs then failLoad ld .crc (BitVec.ofNat 32 ld.block) s
  else if le16At bs 60 ≠ ld.block then failLoad ld .sequence (BitVec.ofNat 32 ld.block) s
  else checkPayload ld bs s

/-! ### Memory's answers to the loader (R35, R36, R41) -/

/-- A word of the image arrives; the sixteenth completes its block (R35). -/
def planWord (ld : Load) (data : Word) (s : State) : State :=
  let ld := { ld with words := ld.words ++ [data] }
  if ld.words.length < 16 then readPlanWord ld s else checkBlock ld s

/-- Memory answers the loader's read (R35, R36). -/
def planAnswer (answer : MemAnswer) (s : State) : State :=
  match s.plan.load with
  | some ld =>
    match answer with
    | .ok data => planWord ld data s
    | .error => failLoad ld .memory (BitVec.ofNat 32 ld.block) (setMemoryFlag s)
  | none => s

/-- PLAN_READ_DONE (R35, R36): nothing where memory holds no read of the loader (log 13); an abandoned read's answer is discarded (R41). -/
def planReadDone (answer : MemAnswer) (s : State) : State :=
  match s.port with
  | some g =>
    if g.job = .planRead then
      if g.abandoned then freePort s else planAnswer answer (freePort s)
    else s
  | none => s

def execPlanReadDone (answer : MemAnswer) (s : State) : Host.Outcome State Fault Refusal :=
  .next (planReadDone answer s)

/-! ### LOAD_ABORT (R41) -/

/-- The load in progress fails with ABORTED, its read withdrawn or abandoned (R19, R41). -/
def abortLoad (s : State) : State :=
  match s.plan.load with
  | some ld => failLoad ld .aborted 0#32 s.withdrawPlan
  | none => s

/-- LOAD_ABORT: taken in EXECUTING, refused in IDLE (R41, R157 check 4). -/
def commandLoadAbort (s : State) : State :=
  if s.resetLow then s
  else if s.cmd.executing then ackTaken .loadAbort 0#32 (abortLoad s)
  else refuse .loadAbort .badState s

def execLoadAbort (s : State) : Host.Outcome State Fault Refusal := .next (commandLoadAbort s)

end Sys2Proof.Machine
end

