-- ==== Sys2Proof/Machine/CommandUnit.lean ====
section
/-! DEFINITION. The command unit (spec/09_commands_and_notices.md): a snoop of the command word becomes a command or a BAD_COMMAND, and the meaning of BAD_COMMAND. -/

namespace Sys2Proof.Machine

/-- A command that passes checks 1 to 3 of R157 goes to the block that owns it. -/
def runCommand : Command → State → State
  | .loadPlan arg => commandLoadPlan arg
  | .loadAbort => commandLoadAbort
  | .start => commandStart
  | .stop => commandStop
  | .purge => commandPurge
  | .sweepFirst p => commandSweepFirst p
  | .sweepLast p => commandSweepLast p
  | .sweepExclude p => commandSweepExclude p
  | .sweepGo => commandSweepGo
  | .pocketOpen p => commandPocketOpen p
  | .pocketDisable p => commandPocketDisable p
  | .pocketEnable p => commandPocketEnable p
  | .stationEnable st => commandStationEnable st
  | .stationDisable st => commandStationDisable st
  | .stationRestart st => commandStationRestart st
  | .chainStart => commandChainStart
  | .chainResume => commandChainResume
  | .chainStop => commandChainStop
  | .chainFlush => commandChainFlush
  | .setNoticeMask mask => commandSetNoticeMask mask
  | .setAttnMode mode => commandSetAttnMode mode
  | .statusClear => commandStatusClear

/-- A command refused at check 1, 2 or 3: its acknowledgment carries the whole written word (R157, R159). -/
def refuseWord (w : Word) (s : State) : State :=
  acknowledge ⟨w.extractLsb' 0 8, .badCommand, false, none, w⟩ s

/-- The command unit takes a snoop of the command word (R157). -/
def commandSnoop (w : Word) (enables : Enables) (s : State) : State :=
  match acceptCommandWord w enables with
  | some c => runCommand c s
  | none => refuseWord w s

/-- BAD_COMMAND (R157). A word that passes the checks is not one: it is the command it spells (log 16). -/
def badCommand (w : Word) (enables : Enables) (s : State) : State :=
  if s.resetLow then s else commandSnoop w enables s

def execBadCommand (w : Word) (enables : Enables) (s : State) :
    Host.Outcome State Fault Refusal :=
  .next (badCommand w enables s)

end Sys2Proof.Machine
end

