-- ==== Sys2Proof/Machine/MemoryPath.lean ====
section
/-! DEFINITION. The memory path unit (spec/01_the_memory_path.md): the window table, classification, guards, overlays, the arbiter, passthrough and snoops, and the meanings of BACKPLANE_ACCESS, ARBITER_GRANT and PASSTHROUGH_DONE. -/

namespace Sys2Proof.Machine

/-! ### The window table (R6, R8), computed (log 11) -/

/-- The layout windows in the table (R6). -/
def State.layoutWindows (s : State) : List Window :=
  match s.plan.layout with
  | some l => l.windows
  | none => []

/-- The plan-image window of a load (R8). -/
def Load.window (ld : Load) : Window := ⟨.planImage, ld.image.toNat, 64 * ld.coveredBlocks, none⟩

/-- The plan-image window, while a load is in progress (R8). -/
def State.imageWindow (s : State) : Option Window := s.plan.load.map Load.window

/-! ### Classification (R2, R4, R5) -/

/-- Address bits 1 and 0 are taken as zero (R1). -/
def wordAligned (addr : Word) : Word := addr &&& 0xFFFFFFFC#32

/-- The address lies in the control area (R3). -/
def State.inControlArea (s : State) (addr : Word) : Bool :=
  decide (controlBase s.cb ≤ addr.toNat) && decide (addr.toNat < controlBase s.cb + 0x1000)

/-- The control-area map (R4, R5), by the byte offset of a word. -/
def controlRegion (offset : Nat) : Region :=
  if offset = 0x000 then .commandWord
  else if offset = 0x004 then .consumerIndex
  else if offset = 0x008 then .basePointer
  else if offset = 0x00C then .lastPointer
  else if offset < 0x100 then .ordinary
  else if offset < 0x180 then .statusBlock ((offset - 0x100) / 4)
  else if offset < 0x200 then .ordinary
  else if offset < 0x300 then .pocketStatus (Fin.ofNat 64 ((offset - 0x200) / 4))
  else if offset < 0x400 then .pocketBatch (Fin.ofNat 64 ((offset - 0x300) / 4))
  else .ordinary

/-- The region that holds an addressed word (R2). -/
def State.regionOf (s : State) (addr : Word) : Region :=
  if s.inControlArea addr then controlRegion (addr.toNat - controlBase s.cb)
  else
    match s.layoutWindows.find? (·.contains addr.toNat) with
    | some w => .window w ((addr.toNat - w.base) / 4)
    | none => .ordinary

/-! ### Guards (R9, R10) -/

/-- The address lies in the plan-image window and outside the control area (R9, 1). -/
def State.imageCovers (s : State) (addr : Word) : Bool :=
  match s.imageWindow with
  | some w => w.contains addr.toNat && !s.inControlArea addr
  | none => false

/-- The guard of a layout window (R9, 4 to 7). -/
def windowGuard (w : Window) (master : MasterNo) : Option BlockCause :=
  match w.kind with
  | .inductionRing => if w.owner = some master then none else some .inductionRing
  | .stationRing st => if w.owner = some master then none else some (.stationRing st)
  | .gateWindow => some .gateWindow
  | .noticeRing => some .noticeRing
  | .planImage => some .planImage

/-- The guard of a region (R9, 2 to 7). -/
def State.regionGuard (s : State) (r : Region) (master : MasterNo) : Option BlockCause :=
  match r with
  | .commandWord | .consumerIndex | .basePointer | .lastPointer =>
    if master = s.master then none else some .controlWord
  | .statusBlock _ => some .statusOverlay
  | .pocketStatus _ | .pocketBatch _ => some .pocketOverlay
  | .window w _ => windowGuard w master
  | .ordinary => none

/-- What refuses a write, the first condition in the order of R9. -/
def State.writeRefusal (s : State) (addr : Word) (master : MasterNo) : Option BlockCause :=
  if s.imageCovers addr then some .planImage else s.regionGuard (s.regionOf addr) master

/-- The backplane port answers ERROR, or OK to a write (R1). -/
def respond (master : MasterNo) (answer : Option (Option Word)) (s : State) : State :=
  { s with backplane := { s.backplane with response := some ⟨master, answer⟩ } }

/-- Set the GUARD latched flag (R10, R170). -/
def setGuardFlag (s : State) : State := { s with notice := { s.notice with guard := true } }

/-- A refused write: ERROR, the GUARD flag and a WRITE_BLOCKED notice (R10). -/
def blockWrite (cause : BlockCause) (addr : Word) (master : MasterNo) (enables : Enables)
    (s : State) : State :=
  raise { kind := .writeBlocked, source := master.setWidth 8, cause := cause.code
          arg16 := BitVec.ofNat 16 (enables.toNat + 256 * cause.stationBits), arg32 := addr }
    (setGuardFlag (respond master none s))

/-! ### Overlays (R5, R12, R13) -/

/-- A read is overlaid: its region answers from the part's own state (R12). -/
inductive Overlay where
  | word (w : Word)
  | slot (slot : BitVec 8)
deriving DecidableEq, Repr

/-- The overlay of a region, if it has one (R5, R12, R13). -/
def State.overlay (s : State) (r : Region) : Option Overlay :=
  match r with
  | .statusBlock w => some (.word (statusWord s w))
  | .pocketStatus p => some (.word (pocketStatusWord (s.pocket p)))
  | .pocketBatch p => some (.word (pocketBatchWord (s.pocket p)))
  | .window w offset =>
    match w.kind with
    | .gateWindow => some (.slot (BitVec.ofNat 8 offset))
    | .inductionRing | .stationRing _ | .noticeRing | .planImage => none
  | .commandWord | .consumerIndex | .basePointer | .lastPointer | .ordinary => none

/-- An overlaid read is answered (R12, R13). -/
def answerOverlay (o : Overlay) (master : MasterNo) (s : State) : State :=
  match o with
  | .word w => respondWord master w s
  | .slot slot => gateRead slot master s

/-! ### Taking an access (R1, R2) -/

/-- The access is forwarded: it waits at the arbiter, and its master has no response (R1, R20). -/
def forward (a : Access) (r : Region) (s : State) : State :=
  { s with backplane := ⟨some ⟨a, r, false⟩, none⟩ }

/-- An access with its word address is classified (R2). -/
def classify (a : Access) (s : State) : State :=
  match a.op with
  | .write _ enables =>
    match s.writeRefusal a.addr a.master with
    | some cause => blockWrite cause a.addr a.master enables s
    | none => forward a (s.regionOf a.addr) s
  | .read =>
    match s.overlay (s.regionOf a.addr) with
    | some o => answerOverlay o a.master s
    | none => forward a (s.regionOf a.addr) s

/-- BACKPLANE_ACCESS (R1, R2): the port takes no access while one is in the part or RESET_N is low (log 6). -/
def backplaneAccess (a : Access) (s : State) : State :=
  if s.resetLow || s.backplane.busy.isSome then s
  else classify { a with addr := wordAligned a.addr } s

def execBackplaneAccess (a : Access) (s : State) : Host.Outcome State Fault Refusal :=
  .next (backplaneAccess a s)

/-! ### The arbiter (R20, R21) -/

/-- The requester's access is pending with wait count 4 (R20, 1). -/
def OwnReq.overdue (r : OwnReq) : Bool := r.req.isSome && decide (Config.waitLimit ≤ r.wait)

/-- A forwarded backplane access has not yet been granted (R20). -/
def State.passthroughPending (s : State) : Bool :=
  match s.backplane.busy with
  | some f => !f.granted
  | none => false

/-- Which requester a grant goes to (R20). -/
def State.grantTo (s : State) : Option Requester :=
  if s.noticeReq.overdue then some .notice
  else if s.chainReq.overdue then some .chain
  else if s.planReq.overdue then some .plan
  else if s.passthroughPending then some .passthrough
  else if s.noticeReq.req.isSome then some .notice
  else if s.chainReq.req.isSome then some .chain
  else if s.planReq.req.isSome then some .plan
  else none

/-- A pending requester waits through a passthrough grant (R20, 2). -/
def OwnReq.passedOver (r : OwnReq) : OwnReq :=
  if r.req.isSome then { r with wait := r.wait + 1 } else r

/-- The port takes an own access (R20, R21). -/
def portTakes (o : Option OwnAccess) (port : Option Granted) : Option Granted :=
  match o with
  | some a => some ⟨a.job, a.access, false⟩
  | none => port

/-- The forwarded access takes the port (R1, R14, R20). -/
def grantPassthrough (s : State) : State :=
  match s.backplane.busy with
  | some f =>
    { s with
      port := some ⟨.passthrough f.access.master, ⟨f.access.addr, f.access.op⟩, false⟩
      backplane := { s.backplane with busy := some { f with granted := true } }
      noticeReq := s.noticeReq.passedOver
      chainReq := s.chainReq.passedOver
      planReq := s.planReq.passedOver }
  | none => s

/-- The port is given to a requester, whose wait count returns to 0 (R20). -/
def grant (r : Requester) (s : State) : State :=
  match r with
  | .passthrough => grantPassthrough s
  | .notice => { s with port := portTakes s.noticeReq.req s.port, noticeReq := .reset }
  | .chain => { s with port := portTakes s.chainReq.req s.port, chainReq := .reset }
  | .plan => { s with port := portTakes s.planReq.req s.port, planReq := .reset }

/-- ARBITER_GRANT (R20): decided when the port is free and an access is pending; the port makes none while RESET_N is low (R22). -/
def arbiterGrant (s : State) : State :=
  if s.resetLow || s.port.isSome then s
  else
    match s.grantTo with
    | some r => grant r s
    | none => s

def execArbiterGrant (s : State) : Host.Outcome State Fault Refusal := .next (arbiterGrant s)

/-! ### Passthrough and snoops (R14 to R17) -/

/-- Memory's answer as the master receives it (R1, R14, R16). -/
def masterAnswer (op : BusOp) (answer : MemAnswer) : Option (Option Word) :=
  match answer, op with
  | .ok data, .read => some (some data)
  | .ok _, .write _ _ => some none
  | .error, _ => none

/-- The snoop of a window's word reaches the window's owner (R14). -/
def windowSnoop (k : WindowKind) (offset : Nat) (data : Word) (enables : Enables) :
    State → State :=
  match k with
  | .inductionRing => inductionSnoop offset data enables
  | .stationRing st => stationSnoop st offset data enables
  | .gateWindow | .noticeRing | .planImage => id

/-- An accepted write is snooped by the owner of its region; a window's snoop only if the window is still in the table (R14, R17). -/
def snoop (r : Region) (data : Word) (enables : Enables) (s : State) : State :=
  match r with
  | .commandWord => commandSnoop data enables s
  | .consumerIndex => consumerSnoop data enables s
  | .basePointer => chainBasePointer data enables s
  | .lastPointer => chainLastPointer data enables s
  | .window w offset =>
    if w ∈ s.layoutWindows then windowSnoop w.kind offset data enables s else s
  | .statusBlock _ | .pocketStatus _ | .pocketBatch _ | .ordinary => s

/-- The snoop that an answered access brings (R14, R16). -/
def snoopOf (f : Forwarded) (answer : MemAnswer) (s : State) : State :=
  match f.access.op, answer with
  | .write data enables, .ok _ => snoop f.region data enables s
  | .write _ _, .error | .read, _ => s

/-- The answer goes back to the master and the ports are free again (R1, R14). -/
def passBack (master : MasterNo) (op : BusOp) (answer : MemAnswer) (s : State) : State :=
  { s with port := none, backplane := ⟨none, some ⟨master, masterAnswer op answer⟩⟩ }

/-- Memory answers a passthrough access made before a reset: the response goes back, without a snoop (R22, 3; log 8). -/
def passBackLate (master : MasterNo) (op : BusOp) (answer : MemAnswer) (s : State) : State :=
  { s with
    port := none
    backplane := { s.backplane with response := some ⟨master, masterAnswer op answer⟩ } }

/-- PASSTHROUGH_DONE (R14, R16, R17): nothing where memory holds no passthrough access (log 13). -/
def passthroughDone (answer : MemAnswer) (s : State) : State :=
  match s.port with
  | some ⟨.passthrough master, access, abandoned⟩ =>
    if abandoned then passBackLate master access.op answer s
    else
      match s.backplane.busy with
      | some f => snoopOf f answer (passBack master access.op answer s)
      | none => s
  | some ⟨.noticeWord, _, _⟩ | some ⟨.chainDesc, _, _⟩ | some ⟨.chainReread, _, _⟩
  | some ⟨.chainRecord, _, _⟩ | some ⟨.chainCompletion, _, _⟩ | some ⟨.planRead, _, _⟩
  | none => s

def execPassthroughDone (answer : MemAnswer) (s : State) : Host.Outcome State Fault Refusal :=
  .next (passthroughDone answer s)

end Sys2Proof.Machine
end

