-- ==== Sys2Proof/Machine/Reset.lean ====
section
/-! DEFINITION. Device reset (R22, R23, R44, R70 and the reset values of every chapter): the meanings of RESET_ASSERT and RESET_RELEASE. -/

namespace Sys2Proof.Machine

/-- What reset leaves at the memory port: an access at memory is carried to its end, and no requester acts on its answer (R22, 1 and 3). -/
def portAcrossReset (port : Option Granted) : Option Granted :=
  port.map fun g => { g with abandoned := true }

/-- What reset answers at the backplane port: ERROR to an access not yet granted (R22, 2). -/
def responseAtReset (b : Backplane) : Option BusResponse :=
  match b.busy with
  | some f => if f.granted then b.response else some ⟨f.access.master, none⟩
  | none => b.response

/-- Every block at its reset value, under the straps given; the queue and an access at memory stand (R22, R23). -/
def resetBlocks (cb : BitVec 4) (cm : MasterNo) (s : State) : State :=
  { State.resetWith cb cm with
    pending := s.pending
    backplane := ⟨none, responseAtReset s.backplane⟩
    port := portAcrossReset s.port }

/-- RESET_ASSERT (R22): the part's work is abandoned and its blocks stand at their reset values from here on (log 8), the straps kept until the release (R3). -/
def resetAssert (s : State) : State := { resetBlocks s.cb s.master s with resetLow := true }

def execResetAssert (s : State) : Host.Outcome State Fault Refusal := .next (resetAssert s)

/-- RESET_RELEASE (R3, R23): the straps are sampled and every block stands at its reset value. -/
def resetRelease (cb : BitVec 4) (cm : MasterNo) (s : State) : State := resetBlocks cb cm s

def execResetRelease (cb : BitVec 4) (cm : MasterNo) (s : State) :
    Host.Outcome State Fault Refusal :=
  .next (resetRelease cb cm s)

end Sys2Proof.Machine
end

