-- ==== Sys2Proof/Machine/Dispatch.lean ====
section
/-! DEFINITION. One arm for each row of spec/opcode_table.json: the command's effect on everything but the queue. -/

namespace Sys2Proof.Machine

def exec (i : Instr) (s : State) : Host.Outcome State Fault Refusal :=
  match i with
  | .resetAssert => Sys2Proof.Machine.execResetAssert s
  | .resetRelease cb cm => Sys2Proof.Machine.execResetRelease cb cm s
  | .encAdvance => Sys2Proof.Machine.execEncAdvance s
  | .stallExpiry => Sys2Proof.Machine.execStallExpiry s
  | .lostExpiry => Sys2Proof.Machine.execLostExpiry s
  | .decideExpiry => Sys2Proof.Machine.execDecideExpiry s
  | .backplaneAccess a => Sys2Proof.Machine.execBackplaneAccess a s
  | .gateDispatch slot => Sys2Proof.Machine.execGateDispatch slot s
  | .arbiterGrant => Sys2Proof.Machine.execArbiterGrant s
  | .passthroughDone answer => Sys2Proof.Machine.execPassthroughDone answer s
  | .inductionRingWrite offset data enables => Sys2Proof.Machine.execInductionRingWrite offset data enables s
  | .stationRingWrite st offset data enables => Sys2Proof.Machine.execStationRingWrite st offset data enables s
  | .drainComplete p => Sys2Proof.Machine.execDrainComplete p s
  | .planReadDone answer => Sys2Proof.Machine.execPlanReadDone answer s
  | .chainDescReadDone answer => Sys2Proof.Machine.execChainDescReadDone answer s
  | .chainRereadDone answer => Sys2Proof.Machine.execChainRereadDone answer s
  | .chainRecordWordDone answer => Sys2Proof.Machine.execChainRecordWordDone answer s
  | .chainCompletionDone answer => Sys2Proof.Machine.execChainCompletionDone answer s
  | .noticeWordWriteDone answer => Sys2Proof.Machine.execNoticeWordWriteDone answer s
  | .loadPlan arg => Sys2Proof.Machine.execLoadPlan arg s
  | .loadAbort => Sys2Proof.Machine.execLoadAbort s
  | .start => Sys2Proof.Machine.execStart s
  | .stop => Sys2Proof.Machine.execStop s
  | .purge => Sys2Proof.Machine.execPurge s
  | .sweepFirst p => Sys2Proof.Machine.execSweepFirst p s
  | .sweepLast p => Sys2Proof.Machine.execSweepLast p s
  | .sweepExclude p => Sys2Proof.Machine.execSweepExclude p s
  | .sweepGo => Sys2Proof.Machine.execSweepGo s
  | .pocketOpen p => Sys2Proof.Machine.execPocketOpen p s
  | .pocketDisable p => Sys2Proof.Machine.execPocketDisable p s
  | .pocketEnable p => Sys2Proof.Machine.execPocketEnable p s
  | .stationEnable st => Sys2Proof.Machine.execStationEnable st s
  | .stationDisable st => Sys2Proof.Machine.execStationDisable st s
  | .stationRestart st => Sys2Proof.Machine.execStationRestart st s
  | .chainStart => Sys2Proof.Machine.execChainStart s
  | .chainResume => Sys2Proof.Machine.execChainResume s
  | .chainStop => Sys2Proof.Machine.execChainStop s
  | .chainFlush => Sys2Proof.Machine.execChainFlush s
  | .setNoticeMask mask => Sys2Proof.Machine.execSetNoticeMask mask s
  | .setAttnMode mode => Sys2Proof.Machine.execSetAttnMode mode s
  | .statusClear => Sys2Proof.Machine.execStatusClear s
  | .badCommand word enables => Sys2Proof.Machine.execBadCommand word enables s
  | .noticeConsumerIndex data enables => Sys2Proof.Machine.execNoticeConsumerIndex data enables s
  | .chainBasePointer data enables => Sys2Proof.Machine.execChainBasePointer data enables s
  | .chainLastPointer data enables => Sys2Proof.Machine.execChainLastPointer data enables s

end Sys2Proof.Machine
end

