-- ==== Sys2Proof/Machine/Step.lean ====
section
/-! DEFINITION. One step of the block: the command at the front of the queue, or one REFCLK edge where none waits (R51, log 7). -/

namespace Sys2Proof.Machine

/-- Take the command at the front of the queue and run it on the rest; an empty queue lets one REFCLK edge pass (log 7). -/
def step (s : State) : Host.Outcome State Fault Refusal :=
  match s.pending with
  | c :: rest => exec c { s with pending := rest }
  | [] => .next (refclkEdge s)

/-- The state with the command that a word spells put at the front of its queue; no row of the table gives bits, so no word spells one (log 20). -/
def State.withFetchWord (s : State) (nbits w : Nat) : State :=
  match decodeTableWord nbits w with
  | some c => { s with pending := c :: s.pending }
  | none => s

end Sys2Proof.Machine
end

