-- ==== Sys2Proof/Safety.lean ====
section
/-! DEFINITION. What is stated about the part over all its states: the invariants that its steps keep, and the readings of a state that the statements use. -/

namespace Sys2Proof

/-- The row of the table that a command of the command word is. -/
def Command.instr : Command → Instr
  | .loadPlan arg => .loadPlan arg
  | .loadAbort => .loadAbort
  | .start => .start
  | .stop => .stop
  | .purge => .purge
  | .sweepFirst p => .sweepFirst p
  | .sweepLast p => .sweepLast p
  | .sweepExclude p => .sweepExclude p
  | .sweepGo => .sweepGo
  | .pocketOpen p => .pocketOpen p
  | .pocketDisable p => .pocketDisable p
  | .pocketEnable p => .pocketEnable p
  | .stationEnable st => .stationEnable st
  | .stationDisable st => .stationDisable st
  | .stationRestart st => .stationRestart st
  | .chainStart => .chainStart
  | .chainResume => .chainResume
  | .chainStop => .chainStop
  | .chainFlush => .chainFlush
  | .setNoticeMask mask => .setNoticeMask mask
  | .setAttnMode mode => .setAttnMode mode
  | .statusClear => .statusClear

end Sys2Proof

namespace Sys2Proof.Machine

/-! ### Readings -/

/-- The commands of a list, each on the state that those before it leave. -/
def execInTurn : List Instr → State → Host.Outcome State Fault Refusal
  | [], s => .next s
  | c :: cs, s =>
    match exec c s with
    | .next t => execInTurn cs t
    | .fault r => .fault r
    | .refused r => .refused r

/-- The tags of the letters in transit, oldest first (R63). -/
def State.tags (s : State) : List Tag := s.transit.letters.map (·.tag)

/-- The disposition records that wait in the retire buffer, without their boundary marks (R141). -/
def State.records (s : State) : List Disposition := s.retire.map (·.record)

/-- A notice as it is queued: with the position counter of its event (R161). -/
def State.stamp (s : State) (n : Notice) : Notice := { n with position := s.transport.position }

/-- The FIFO of `s` once these notices have been raised in one event: the unmasked ones join in order, and those that find 32 entries are dropped (R161). -/
def State.queued (s : State) (ns : List Notice) : List Notice :=
  s.notice.fifo ++
    ((ns.filter fun n => noticeUnmasked s.notice.mask n.kind).map s.stamp).take
      (Config.maxFifo - s.notice.fifo.length)

/-- How many of these notices, raised in one event, are dropped: the unmasked ones for which the FIFO of 32 has no room (R161). -/
def State.dropped (s : State) (ns : List Notice) : Nat :=
  (ns.filter fun n => noticeUnmasked s.notice.mask n.kind).length -
    (Config.maxFifo - s.notice.fifo.length)

/-- The notice unit's registers other than its FIFO, its lost count and flag, and its write in progress stand as they were. -/
def State.NoticeRegistersKept (s t : State) : Prop :=
  { t.notice with
    fifo := s.notice.fifo, lostCount := s.notice.lostCount, lost := s.notice.lost
    writing := s.notice.writing } = s.notice

/-- The notices `ns`, in order, are all that the notice unit has taken between `s` and `t`. The unmasked ones join the FIFO; each one dropped raises the lost count by 1, to 65535 at most, and sets LOST (R161). Where one joins and the ring of the layout in force is not in FAULT, has room, and no notice write is in progress, word 0 of the head entry is presented for ring entry [producer index]; otherwise the write in progress and its request stand (R163). Every other register of the unit, the position counter and the layout in force stand. -/
structure State.Raised (s t : State) (ns : List Notice) : Prop where
  fifo      : t.notice.fifo = s.queued ns
  lostCount : t.notice.lostCount =
    max s.notice.lostCount (min 65535 (s.notice.lostCount + s.dropped ns))
  lost      : t.notice.lost = (s.notice.lost || decide (0 < s.dropped ns))
  began     : ∀ l h rest, s.plan.layout = some l → s.notice.ringFault = false →
    (s.notice.producer + 1) % l.noticeSize ≠ s.notice.consumer → s.notice.writing = none →
    t.notice.fifo ≠ s.notice.fifo → t.notice.fifo = h :: rest →
    t.notice.writing = some 0 ∧
    t.noticeReq = ⟨some ⟨.noticeWord, ⟨BitVec.ofNat 32 (l.noticeBase + 16 * s.notice.producer),
      .write (h.word 0) 0xF#4⟩⟩, 0⟩
  stood     : (∀ l, s.plan.layout = some l → s.notice.ringFault = true ∨
      (s.notice.producer + 1) % l.noticeSize = s.notice.consumer) ∨
      s.notice.writing ≠ none ∨ t.notice.fifo = s.notice.fifo →
    t.notice.writing = s.notice.writing ∧ t.noticeReq = s.noticeReq
  kept      : s.NoticeRegistersKept t
  position  : t.transport.position = s.transport.position
  layout    : t.plan.layout = s.plan.layout

/-- A letter holds a reservation of pocket `p` (R105). -/
def Letter.reserves (p : PocketIx) (l : Letter) : Bool :=
  match l.state with
  | .decided d => d.final == p
  | .collecting | .awaitPlan => false

/-- The letters that hold a reservation of pocket `p` (R105). -/
def State.reserved (s : State) (p : PocketIx) : Nat :=
  s.transit.letters.countP (Letter.reserves p)

/-- The command `c` has been refused with `r` and nothing else has happened: the acknowledgment is recorded, counted and raised (R157, R159). -/
def State.RefusedTo (s t : State) (c : Command) (r : ResultCode) : Prop :=
  t.cmd = { s.cmd with
    last := ⟨c.opcode, r, false, none, c.argument.setWidth 32⟩, ackCount := s.cmd.ackCount + 1 } ∧
  s.Raised t [ackNotice t.cmd.last] ∧
  { t with cmd := s.cmd, notice := s.notice, noticeReq := s.noticeReq } = s

/-- The command `c` has been taken with OK: the acknowledgment with this argument is recorded and counted, with SWEEP_CANCELLED where it ended a sweep, and no sweep stands open (R139, R159). -/
def State.TakenTo (s t : State) (c : Command) (arg : Word) : Prop :=
  t.cmd = { s.cmd with
    last := ⟨c.opcode, .ok, s.sweepOpen, none, arg⟩, ackCount := s.cmd.ackCount + 1 } ∧
  t.sweep = .idle

/-- The letter as a failed load decides it, if it waits for its plan: to pocket 0 with NO_PLAN (R37). -/
def Letter.decidedNoPlan (l : Letter) : Letter :=
  if l.state = .awaitPlan then
    { l with
      state := .decided ⟨0, 0, .noPlan, false, none⟩, accountKey := (summarize l.reads).key
      reasonClass := (summarize l.reads).reason, forwardPresent := (summarize l.reads).forward }
  else l

/-- The load `ld` has failed with this cause and detail: INVALID and IDLE; every AWAIT_PLAN letter is decided to pocket 0 and reserved there; the acknowledgment carries the cause, its detail and the SWEEP_CANCELLED flag kept at acceptance. The layout, the parameters, the stations, the notice ring and every other pocket stand (R37). -/
def State.LoadFailedTo (s t : State) (ld : Load) (cause : LoadCause) (detail : Word) : Prop :=
  t.plan = { s.plan with state := .invalid, load := none } ∧
  t.transit = { s.transit with letters := s.transit.letters.map Letter.decidedNoPlan } ∧
  t.pockets = s.pockets.set 0 { s.pocket 0 with
    inFlight := (s.pocket 0).inFlight + s.transit.letters.countP fun l => decide (l.state = .awaitPlan) } ∧
  t.cmd = { executing := false
            last := ⟨0x01#8, .loadFailed, ld.sweepCancelled, some cause, detail⟩
            ackCount := s.cmd.ackCount + 1 } ∧
  { t with
    plan := s.plan, transit := s.transit, pockets := s.pockets, cmd := s.cmd
    notice := s.notice, noticeReq := s.noticeReq } = s

/-- The command unit can take a command: RESET_N is high and the command state is IDLE (R22, R157). -/
def State.Ready (s : State) : Prop := s.resetLow = false ∧ s.cmd.executing = false

/-! ### What a landing, a departure and a batch's end bring about (R113, R118, R133, R142, R148) -/

/-- The chain engine's request once it presents this access: the access waits while memory has one of the engine's (R145). -/
def State.chainPresents (s : State) (job : Job) (a : MemAccess) : OwnReq :=
  if s.atMemory .chain then s.chainReq else ⟨some ⟨job, a⟩, 0⟩

/-- The state of a pocket once no letter is in flight to it: a DRAINING pocket takes its drain target (R132). -/
def PocketState.drained : PocketState → PocketState
  | .draining .closed => .closed
  | .draining .disabled => .disabled
  | .disabled => .disabled
  | .opened => .opened
  | .closed => .closed

/-- A pocket whose fill has risen by 1, saturating at 4095 (R113). -/
def Pocket.landed (x : Pocket) : Pocket :=
  { x with fill := if x.fill < 4095 then x.fill + 1 else x.fill }

/-- The POCKET_NEAR_FULL and POCKET_FULL notices of a rise of pocket `p`'s fill from what it is in `x` (R113). -/
def Pocket.landingNotices (x : Pocket) (p : PocketIx) (tag : Word) : List Notice :=
  if x.fill < 4095 then
    (if x.threshold ≠ 0 ∧ x.fill + 1 = x.threshold then
      [⟨.pocketNearFull, BitVec.ofNat 8 p.val, 0#4, 0#4, BitVec.ofNat 16 (x.fill + 1), tag, 0#24⟩]
    else []) ++
    (if x.capacity = some (x.fill + 1) then
      [⟨.pocketFull, BitVec.ofNat 8 p.val, 0#4, 0#4, BitVec.ofNat 16 (x.fill + 1), tag, 0#24⟩]
    else [])
  else []

/-- A pocket once a letter that held a reservation of it has left: its in-flight count falls by 1, and at 0 a drain completes (R118, R132). -/
def Pocket.released (x : Pocket) : Pocket :=
  { x with
    inFlight := x.inFlight - 1
    state := if x.inFlight ≤ 1 then x.state.drained else x.state }

/-- The pocket table once letter `l` has left (R118). -/
def State.releasedBy (s : State) (l : Letter) : State :=
  match l.state with
  | .decided d =>
    { s with
      pockets := s.pockets.set d.final.val (s.pocket d.final).released d.final.isLt }
  | .collecting | .awaitPlan => s

/-- The pocket whose drain the departure of `l` completes: its final pocket, where that is DRAINING and no other letter is in flight to it (R118, R132). -/
def State.drainedBy (s : State) (l : Letter) : List PocketIx :=
  match l.state with
  | .decided d =>
    if (s.pocket d.final).released.state = (s.pocket d.final).state then [] else [d.final]
  | .collecting | .awaitPlan => []

/-- The drains that the departures of these letters, one after another, complete: a list for each letter (R120). -/
def State.drainsInTurn : State → List Letter → List (List PocketIx)
  | _, [] => []
  | s, l :: ls => s.drainedBy l :: (s.releasedBy l).drainsInTurn ls

/-- The POCKET_CLOSED notice of the batch of `p` that has ended, its pocket in its new state (R133). -/
def State.closedNotice (s : State) (p : PocketIx) : Notice :=
  ⟨.pocketClosed, BitVec.ofNat 8 p.val, BitVec.ofNat 4 (s.pocket p).state.code, 0#4,
    (s.pocket p).batch, BitVec.ofNat 32 (s.pocket p).fill, 0#24⟩

/-- The chain registers `c` have become `d` by a fault: FAULT with its cause, no work in progress, pending flush cleared, all else as it was (R147, R151). Whether a set stop after completion survives the fault is left open (log 9). -/
def Chain.FaultedTo (c d : Chain) (fault : ChainFault) : Prop :=
  d = { c with
    state := .fault, fault := fault, work := .none, pendingFlush := false
    stopAfter := d.stopAfter } ∧
  (c.stopAfter = false → d.stopAfter = false)

/-- A record has joined the retire buffer: a FILLING engine without work presents word 0 of the head record, and any other engine goes on as it was (R118, R148). -/
def State.HeadBegun (s t : State) : Prop :=
  if s.chain.state = .filling ∧ s.chain.work = .none then
    t.chain = { s.chain with work := .record 0 } ∧
    ∃ r rest, t.retire = r :: rest ∧ t.chainReq = s.chainPresents .chainRecord
      ⟨s.chain.area + BitVec.ofNat 32 (32 * s.chain.count), .write (r.record.word 0) 0xF#4⟩
  else t.chain = s.chain ∧ t.chainReq = s.chainReq

/-- The chain engine has received a batch record: the tail record of the retire buffer carries a boundary, or with the buffer empty a BATCH_CLOSE descriptor that holds records, and has no work, ends with BATCH (R142). -/
def State.BatchHanded (s t : State) : Prop :=
  (∀ rest r, s.retire = rest ++ [r] →
    t.retire = rest ++ [{ r with boundary := true }] ∧ t.chain = s.chain ∧
    t.chainReq = s.chainReq) ∧
  (s.retire = [] → t.retire = [] ∧
    if s.chain.state = .filling ∧ 0 < s.chain.count ∧ s.chain.work = .none ∧
        bitAt s.chain.control 18 = true then
      t.chain = { s.chain with work := .completion .batch, pendingFlush := false } ∧
      t.chainReq = s.chainPresents .chainCompletion ⟨s.chain.descAddr + 12#32,
        .write (completionWord false .batch s.chain.count) 0xF#4⟩
    else t.chain = s.chain ∧ t.chainReq = s.chainReq)

/-! ### The conditions on a plan image, in the words of their rules (R27, R29, R30, R31; 10.5) -/

/-- The 16-bit field of station `st` in block 0: record count in bits 8:0, master in 11:9, reserved 14:12, present in 15. -/
def stationFieldAt (bs : List Byte) (st : StationIx) : Nat := le16At bs (24 + 6 * st.val)

/-- The stations that block 0 marks present. -/
def presentStations (bs : List Byte) : List StationIx :=
  (List.finRange 4).filter fun st => decide (32768 ≤ stationFieldAt bs st)

/-- First address and length of every window that block 0 gives (R6). -/
def imageWindows (bs : List Byte) : List (Nat × Nat) :=
  (le32At bs 8, 8 * le16At bs 12) ::
    (presentStations bs).map
      (fun st => (le32At bs (20 + 6 * st.val), 32 * (stationFieldAt bs st % 512))) ++
    [(le32At bs 16, 1024), (le32At bs 44, 16 * le16At bs 48)]

/-- The condition on the field that a HEADER failure names, in block 0 under straps CB and CM (R27) or in block 1 for pocket count `P` (R29). The reserved bits of a station field stand under RESERVED by the model's reading (log 10). -/
def HeaderField.Holds (bs : List Byte) (cb : BitVec 4) (cm : MasterNo) (P : Nat) :
    HeaderField → Prop
  | .magic => le32At bs 0 = 0x504C4A42
  | .version => byteAt bs 4 = 1
  | .pocketCount => 1 ≤ byteAt bs 5 ∧ byteAt bs 5 ≤ 64
  | .inductionRing => 16 ≤ le16At bs 12 ∧ le16At bs 12 ≤ 1024 ∧ le32At bs 8 % 8 = 0 ∧
      byteAt bs 6 ≤ 7
  | .gateWindow => le32At bs 16 % 4 = 0 ∧ byteAt bs 7 ≤ 7
  | .station st =>
    if 32768 ≤ stationFieldAt bs st then
      16 ≤ stationFieldAt bs st % 512 ∧ stationFieldAt bs st % 512 ≤ 256 ∧
        le32At bs (20 + 6 * st.val) % 32 = 0
    else
      stationFieldAt bs st / 512 % 8 = 0 ∧ le32At bs (20 + 6 * st.val) = 0 ∧
        stationFieldAt bs st % 512 = 0
  | .noticeRing => 32 ≤ le16At bs 48 ∧ le16At bs 48 ≤ 1024 ∧ le16At bs 48 % 32 = 0 ∧
      le32At bs 44 % 16 = 0
  | .distances => 1 ≤ le16At bs 50 ∧ 1 ≤ le16At bs 52 ∧ le16At bs 50 < le16At bs 52
  | .stallTimeout => 1 ≤ byteAt bs 14
  | .masters =>
    ([byteAt bs 6, byteAt bs 7, cm.toNat] ++
      (presentStations bs).map (fun st => stationFieldAt bs st / 512 % 8)).Nodup
  | .extent => ∀ w ∈ imageWindows bs, w.1 + w.2 ≤ 2 ^ 32
  | .overlap => ((cb.toNat * 2 ^ 28, 4096) :: imageWindows bs).Pairwise
      fun a b => a.1 + a.2 ≤ b.1 ∨ b.1 + b.2 ≤ a.1
  | .reserved => byteAt bs 15 = 0 ∧ (∀ k < 4, byteAt bs (56 + k) = 0) ∧
      ∀ st, stationFieldAt bs st / 4096 % 8 = 0
  | .ruleCount => le16At bs 4 ≤ 256
  | .defaultPocket => byteAt bs 6 < P
  | .noReadPocket => byteAt bs 7 < P
  | .minGrade => byteAt bs 8 ≤ 3
  | .missLimit => 1 ≤ byteAt bs 9 ∧ byteAt bs 9 ≤ 15
  | .attnMode => byteAt bs 11 = 0 ∨ byteAt bs 11 = 1
  | .paramReserved => ∀ k < 48, byteAt bs (12 + k) = 0

/-- The condition on position `i` of a pocket block, which is that of pocket `p`, for pocket count `P` (R30): a record below `P`, and an unused position from `P` on. -/
def PocketPositionGood (bs : List Byte) (i p P : Nat) : Prop :=
  if p < P then
    1 ≤ le16At bs (8 * i) ∧ le16At bs (8 * i) ≤ 4095 ∧
    le16At bs (8 * i + 2) ≤ le16At bs (8 * i) ∧
    (byteAt bs (8 * i + 4) = 0 ∨ (byteAt bs (8 * i + 4) < P ∧ byteAt bs (8 * i + 4) ≠ p)) ∧
    (byteAt bs (8 * i + 5) = 0 ∨ byteAt bs (8 * i + 5) = 1) ∧
    byteAt bs (8 * i + 6) = 0 ∧ byteAt bs (8 * i + 7) = 0 ∧
    (p = 0 → byteAt bs (8 * i + 4) = 0 ∧ byteAt bs (8 * i + 5) = 0)
  else ∀ k < 8, byteAt bs (8 * i + k) = 0

/-- The condition on position `i` of a rule block, which is that of rule `r`, for pocket count `P` and rule count `N` (R31). -/
def RulePositionGood (bs : List Byte) (i r P N : Nat) : Prop :=
  if r < N then
    byteAt bs (12 * i) % 8 ≤ 4 ∧ byteAt bs (12 * i) / 8 % 2 = 0 ∧
    byteAt bs (12 * i) / 16 % 4 ≤ 2 ∧ byteAt bs (12 * i) / 64 = 0 ∧
    byteAt bs (12 * i + 1) < P ∧ le32At bs (12 * i + 4) ≤ le32At bs (12 * i + 8)
  else ∀ k < 12, byteAt bs (12 * i + k) = 0

/-! ### Invariants -/

/-- The limits of the part's collections (R60, R84, R138, R161) and of its arbiter's wait counts (R20); the chain engine presents no access while memory has one of its own (R145); and an entry is written only into a ring with room (R163, R164). -/
structure State.Bounded (s : State) : Prop where
  transit : s.transitCount ≤ Config.maxTransit
  sum     : s.occupancySum ≤ Config.maxSum
  reads   : ∀ l ∈ s.transit.letters, l.reads.length ≤ Config.maxReads
  fifo    : s.notice.fifo.length ≤ Config.maxFifo
  waits   : s.noticeReq.wait ≤ Config.waitLimit ∧ s.chainReq.wait ≤ Config.waitLimit ∧
    s.planReq.wait ≤ Config.waitLimit
  chain   : s.atMemory .chain = true → s.chainReq.req = none
  ring    : s.notice.writing ≠ none →
    (s.notice.producer + 1) % s.plan.ringSize ≠ s.notice.consumer

/-- No two letters in transit share a slot (R63). -/
def State.SlotsDistinct (s : State) : Prop := (s.tags.map slotOf).Nodup

/-- FEED_HOLD is asserted exactly while one of its conditions holds (R56); the occupancy latch stands as its sum demands (R57); the stall monitor runs exactly while the line is RUNNING and a letter is in transit (R51); in LEVEL mode ATTN is asserted exactly while the ring holds unread entries (R167). -/
structure State.OutputsRight (s : State) : Prop where
  feedHold : s.transport.feedHold = s.holdLevel
  latchSet : Config.occupancySet ≤ s.occupancySum → s.transport.occupancy = true
  latchOff : s.occupancySum ≤ Config.occupancyClear → s.transport.occupancy = false
  stall    : s.transport.stall.isSome = s.stallWatched
  attn     : s.notice.mode = .level → s.notice.attn = s.levelAttn

/-- The plan loader, the command unit and the transit list agree on whether a load runs (R33, R34, R158); only during a load does a letter wait for its plan (R65); and a load that will change the layout keeps the line STOPPED and the list empty (R28). -/
structure State.LoadRight (s : State) : Prop where
  loading   : s.plan.state = .loading ↔ s.plan.load.isSome
  executing : s.cmd.executing = s.plan.load.isSome
  awaiting  : s.plan.load = none → ∀ l ∈ s.transit.letters, l.state ≠ .awaitPlan
  locked    : ∀ ld, s.plan.load = some ld → ld.changed = true →
    s.transport.line = .stopped ∧ s.transit.letters = []

/-- Every pocket's in-flight count is the number of DECIDED letters whose final pocket it is (R65, R105); and a pocket other than pocket 0 has no letter in flight while it is CLOSED or DISABLED, and at least one while it is DRAINING (R106, R128). -/
structure State.PocketsRight (s : State) : Prop where
  inFlight : ∀ p, (s.pocket p).inFlight = s.reserved p
  atRest   : ∀ p, p ≠ 0 → (s.pocket p).state = .closed ∨ (s.pocket p).state = .disabled →
    (s.pocket p).inFlight = 0
  draining : ∀ p t, (s.pocket p).state = .draining t → 0 < (s.pocket p).inFlight

/-- All of the above. -/
structure State.Inv (s : State) : Prop where
  bounded : s.Bounded
  slots   : s.SlotsDistinct
  outputs : s.OutputsRight
  load    : s.LoadRight
  pockets : s.PocketsRight

end Sys2Proof.Machine
end

