-- ==== Sys2Proof/Certificates/Slice0/Obligations.lean ====
section
/-! DEFINITION. The statements for the provers. A frame is written as `{ t with f := s.f, … } = s`: `t` differs from `s` in the fields named and in no other. -/

open Sys2Proof Sys2Proof.Machine

/-! ### The queue, the REFCLK edge and reset -/

/-- A step runs the command at the front of the queue on the state with the queue's rest. -/
def Obligations.StepRunsFrontCommand : Prop :=
  ∀ (c : Instr) (rest : List Instr) (s : State),
    step { s with pending := c :: rest } = exec c { s with pending := rest }

/-- On an empty queue a step is one REFCLK edge: a running stall monitor counts it, and expires at the last edge of the stall timeout; and STALL_EXPIRY does what the edges that remain do, one after another (R51, R52); that an empty queue lets an edge pass is the model's choice (log 7). STALL_EXPIRY of a running monitor: the line goes to STALLED, the monitor stops, FEED_HOLD is asserted; a LINE_STATE notice with cause STALL, and a FEED_HOLD notice if the level changed (R52, R53, R56). The stall timeout counts 10,000 edges to the unit, and the monitor watches while the line is RUNNING and a letter is in transit (R51). -/
def Obligations.StallMonitorCountsAndExpires : Prop :=
  (∀ s : State, s.stallEdges = (s.plan.layout.map fun l => 10000 * l.stallTimeout).getD 0) ∧
  (∀ s : State, s.stallWatched = true ↔ s.transport.line = .running ∧ s.transit.letters ≠ []) ∧
  (∀ s : State, s.pending = [] →
     (s.transport.stall = none → step s = .next s) ∧
     (∀ n, s.transport.stall = some n → n + 1 < s.stallEdges →
       step s = .next { s with transport := { s.transport with stall := some (n + 1) } }) ∧
     (∀ n, s.transport.stall = some n → s.stallEdges ≤ n + 1 → step s = exec .stallExpiry s) ∧
     (∀ n, s.transport.stall = some n → n < s.stallEdges →
       Host.Core.run Sys2Proof.core (s.stallEdges - n) s = exec .stallExpiry s)) ∧
  (∀ s : State, s.transport.stall.isSome = true → ∃ t, exec .stallExpiry s = .next t ∧
     t.transport = { s.transport with line := .stalled, stall := none, feedHold := true } ∧
     s.Raised t
       (⟨.lineState, 0#8, 2#4, 3#4, BitVec.ofNat 16 s.transport.line.code, 0#32, 0#24⟩ ::
         if s.transport.feedHold then [] else [t.feedHoldNotice]) ∧
     { t with transport := s.transport, notice := s.notice, noticeReq := s.noticeReq } = s)

/-- Every command completes in every state, and leaves the queue behind it as it is. -/
def Obligations.EveryCommandCompletes : Prop :=
  ∀ (c : Instr) (s : State), ∃ t, exec c s = .next t ∧ t.pending = s.pending

/-- The part right after reset: the reset values of R33, R70, R72, R125, R135, R141, R144, R145, R158, R159, R161, R162, R164, R168 and R170, each as its rule gives it. -/
def Obligations.ResetState : Prop :=
  State.reset.resetLow = false ∧
  State.reset.plan.state = .invalid ∧ State.reset.plan.load = none ∧
  State.reset.plan.layout = none ∧ State.reset.plan.pocketCount = 0 ∧
  State.reset.plan.rules = [] ∧ State.reset.plan.planId = 0#32 ∧
  State.reset.plan.defaultPocket = 0 ∧ State.reset.plan.noReadPocket = 0 ∧
  State.reset.plan.minGrade = 0 ∧ State.reset.plan.missLimit = 15 ∧
  State.reset.transport = ⟨0#24, .stopped, none, true, false⟩ ∧
  State.reset.transit = ⟨[], .waiting, none, none⟩ ∧
  (∀ st, State.reset.station st = ⟨.off, .expected, .seek, 0, 0, none, 0⟩) ∧
  (∀ p, State.reset.pocket p =
    ⟨none, 0, none, if p = 0 then .opened else .disabled, 0, 0, 0#16⟩) ∧
  State.reset.sweep = .idle ∧ State.reset.retire = [] ∧
  State.reset.chain.state = .off ∧ State.reset.chain.mode = .hold ∧
  State.reset.chain.descAddr = 0#32 ∧ State.reset.chain.count = 0 ∧
  State.reset.chain.work = .none ∧ State.reset.chain.pendingFlush = false ∧
  State.reset.chain.stopAfter = false ∧ State.reset.chain.fault = .none ∧
  State.reset.chain.base = 0#32 ∧ State.reset.chain.last = 0#32 ∧
  State.reset.chain.lastWritten = false ∧
  State.reset.cmd = ⟨false, ⟨0#8, .none, false, none, 0#32⟩, 0#16⟩ ∧
  State.reset.notice =
    ⟨0xFF#8, [], 0, false, false, false, false, false, 0, 0, none, .level, true, false⟩ ∧
  State.reset.noticeReq = ⟨none, 0⟩ ∧ State.reset.chainReq = ⟨none, 0⟩ ∧
  State.reset.planReq = ⟨none, 0⟩ ∧ State.reset.port = none ∧ State.reset.backplane.busy = none

/-- RESET_ASSERT: own accesses not granted are withdrawn, one at memory is carried to its end with its answer discarded, an access not yet forwarded is answered ERROR; every letter, record and notice is dropped; FEED_HOLD is asserted and ATTN deasserted; the straps stand until the release (R3, R22, R44, R56, R63, R162, R168). RESET_RELEASE samples the straps, and every block stands at its reset value: the part is State.reset but for the straps, the queue, the access still at memory, and the answer last given at the backplane port (R3, R23, R33, R70, R72, R125). That the blocks are empty already while RESET_N is low, and that a release resets whether or not RESET_N was low, is the model's reading, and so is that an access still at memory has its answer discarded after the release too (log 8). -/
def Obligations.ResetAssertAndRelease : Prop :=
  (∀ s : State, ∃ t, exec .resetAssert s = .next t ∧
     t.resetLow = true ∧ t.cb = s.cb ∧ t.master = s.master ∧ t.pending = s.pending ∧
     t.noticeReq = ⟨none, 0⟩ ∧ t.chainReq = ⟨none, 0⟩ ∧ t.planReq = ⟨none, 0⟩ ∧
     t.port = s.port.map (fun g => { g with abandoned := true }) ∧
     t.backplane.busy = none ∧
     (∀ f, s.backplane.busy = some f → f.granted = false →
       t.backplane.response = some ⟨f.access.master, none⟩) ∧
     ((∀ f, s.backplane.busy = some f → f.granted = true) →
       t.backplane.response = s.backplane.response) ∧
     t.transit.letters = [] ∧ t.transit.assembly = .waiting ∧ t.retire = [] ∧
     t.notice.fifo = [] ∧ t.plan.load = none ∧ t.cmd.executing = false ∧
     t.chain.work = .none ∧ t.transport.feedHold = true ∧ t.notice.attn = false ∧
     { t with
       resetLow := false, cb := State.reset.cb, master := State.reset.master
       pending := State.reset.pending, port := State.reset.port
       backplane := State.reset.backplane } = State.reset) ∧
  (∀ (cb : BitVec 4) (cm : MasterNo) (s : State), ∃ t, exec (.resetRelease cb cm) s = .next t ∧
     t.cb = cb ∧ t.master = cm ∧ controlBase t.cb = cb.toNat * 2 ^ 28 ∧
     statusWord t 0 = 0x04640001#32 ∧ t.pending = s.pending ∧
     t.port = s.port.map (fun g => { g with abandoned := true }) ∧
     t.backplane.busy = none ∧
     (∀ f, s.backplane.busy = some f → f.granted = false →
       t.backplane.response = some ⟨f.access.master, none⟩) ∧
     ((∀ f, s.backplane.busy = some f → f.granted = true) →
       t.backplane.response = s.backplane.response) ∧
     { t with
       cb := State.reset.cb, master := State.reset.master, pending := State.reset.pending
       port := State.reset.port, backplane := State.reset.backplane } = State.reset)

/-- While RESET_N is low ENC edges are ignored, the backplane port takes no access, the memory port makes none, and no command, snoop or expiry comes about: each leaves the part as it is (R22, R46; log 6). -/
def Obligations.NothingActsWhileResetLow : Prop :=
  ∀ s : State, s.resetLow = true →
    exec .encAdvance s = .next s ∧ exec .lostExpiry s = .next s ∧
    exec .decideExpiry s = .next s ∧ exec .arbiterGrant s = .next s ∧
    (∀ a, exec (.backplaneAccess a) s = .next s) ∧
    (∀ slot, exec (.gateDispatch slot) s = .next s) ∧
    (∀ o d e, exec (.inductionRingWrite o d e) s = .next s) ∧
    (∀ st o d e, exec (.stationRingWrite st o d e) s = .next s) ∧
    (∀ p, exec (.drainComplete p) s = .next s) ∧
    (∀ c, exec (Command.instr c) s = .next s) ∧
    (∀ w e, exec (.badCommand w e) s = .next s) ∧
    (∀ d e, exec (.noticeConsumerIndex d e) s = .next s) ∧
    (∀ d e, exec (.chainBasePointer d e) s = .next s) ∧
    (∀ d e, exec (.chainLastPointer d e) s = .next s)

/-! ### Positions, tags and the transport -/

/-- Positions are compared modulo 2^24, and the lost and decide points are tested by that comparison (R47). The letter whose decide point is watched is the oldest COLLECTING one (R48). -/
def Obligations.PositionReachedWithinHalfCircle : Prop :=
  (∀ (s : State) (l : Letter), s.decideWatch = some l ↔ ∃ before after,
    s.transit.letters = before ++ l :: after ∧ l.state = .collecting ∧
    ∀ x ∈ before, x.state ≠ .collecting) ∧
  (∀ counter p : Position,
    positionReached counter p = true ↔ (counter.toNat + 2 ^ 24 - p.toNat) % 2 ^ 24 < 2 ^ 23) ∧
  (∀ (s : State) (l : Letter) (lay : Layout), s.plan.layout = some lay →
    s.lostReached l = positionReached s.transport.position
      (l.entryPos + BitVec.ofNat 24 lay.lostDistance) ∧
    s.decideReached l = positionReached s.transport.position
      (l.entryPos + BitVec.ofNat 24 lay.decideDistance))

/-- Tags are compared in a circle of 65536 (R59); the ORDER check of a LOCKED station and the TAG_ORDER check of an entry that passes the checks before it use the comparison. A tag's slot is its low eight bits, and a slot lookup finds the letter of that slot (R66). -/
def Obligations.TagsComparedInCircle : Prop :=
  (∀ t : Tag, slotOf t = t.extractLsb' 0 8) ∧
  (∀ (s : State) (slot : BitVec 8) (l : Letter), s.letterBySlot slot = some l ↔ ∃ before after,
    s.transit.letters = before ++ l :: after ∧ slotOf l.tag = slot ∧
    ∀ x ∈ before, slotOf x.tag ≠ slot) ∧
  (∀ a b : Tag, tagOlder a b = true ↔
    1 ≤ (b.toNat + 65536 - a.toNat) % 65536 ∧ (b.toNat + 65536 - a.toNat) % 65536 ≤ 32767) ∧
  (∀ (x : Station) (t : Tag), x.outOfOrder t = true ↔
    x.framing = .locked ∧ ∃ last, x.lastTag = some last ∧ tagOlder t last = true) ∧
  (∀ (s : State) (e : Entry) (last : Tag), s.transport.line ≠ .stopped →
    s.transitCount ≠ 32 → s.occupancySum ≠ 64 → s.transit.lastTag = some last →
    ((∃ arg, s.entryRefusal (some e) e.tag = some (.tagOrder, arg)) ↔
      tagOlder last e.tag = false))

/-- ENC_ADVANCE: the counter and the gap count rise; a STALLED line returns to RUNNING with a LINE_STATE notice of cause MOTION, FEED_HOLD is evaluated with a notice of a changed level, and the monitor restarts where it watches, all under the new count (R46, R51 to R53, R56). From there the expiries that are due follow, lost expiries first and then decide expiries, each as LOST_EXPIRY and DECIDE_EXPIRY give it (R48 to R50): the part does what those rows do, one after another, as many of each as there are letters, since one that is not due does nothing. So the letters that left stood at the head, had each reached their lost point, and left as LOST in list order; where no COLLECTING letter left has reached its decide point, the letters left and the stations stand; and afterwards neither the oldest letter has reached its lost point nor the oldest COLLECTING letter its decide point. No letter joins, no fill changes. -/
def Obligations.AdvanceTakesDueExpiries : Prop :=
  ∀ s : State, s.resetLow = false → ∃ u t, exec .encAdvance s = .next t ∧
    u.transport = { s.transport with
      position := s.transport.position + 1
      line := if s.transport.line = .stalled then .running else s.transport.line
      feedHold := if s.transport.line = .stalled then u.holdLevel else s.transport.feedHold
      stall := if u.stallWatched then some 0 else none } ∧
    u.transit = { s.transit with
      gap := s.transit.gap.map (fun g => if g < 65535 then g + 1 else g) } ∧
    (∀ c : State, c = { s with transport := { s.transport with
        position := s.transport.position + 1 } } →
      c.Raised u
        (if s.transport.line = .stalled then
          ⟨.lineState, 0#8, 1#4, 4#4, 2#16, 0#32, 0#24⟩ ::
            if u.transport.feedHold = s.transport.feedHold then [] else [u.feedHoldNotice]
        else [])) ∧
    { u with
      transport := s.transport, transit := s.transit, notice := s.notice
      noticeReq := s.noticeReq } = s ∧
    (∀ n, n = s.transit.letters.length →
      execInTurn (List.replicate n .lostExpiry ++ List.replicate n .decideExpiry) u = .next t) ∧
    (∃ gone left, s.transit.letters = gone ++ left ∧
      (∀ l ∈ gone, u.lostReached l = true) ∧
      t.records = s.records ++ gone.map (u.disposition .lost) ∧
      t.tags = left.map (·.tag) ∧
      ((∀ l ∈ left, l.state = .collecting → u.decideReached l = false) →
        t.transit.letters = left ∧ t.stations = s.stations)) ∧
    (∀ l, t.transit.letters.head? = some l → t.lostReached l = false) ∧
    (∀ l, t.decideWatch = some l → t.decideReached l = false) ∧
    t.transport = { u.transport with stall := if t.stallWatched then some 0 else none } ∧
    (∀ p, (t.pocket p).fill = (s.pocket p).fill) ∧
    t.transit = { u.transit with letters := t.transit.letters } ∧
    { t with
      transport := s.transport, transit := s.transit, stations := s.stations
      pockets := s.pockets, chain := s.chain, chainReq := s.chainReq, retire := s.retire
      notice := s.notice, noticeReq := s.noticeReq } = s

/-- LOST_EXPIRY, where the oldest letter's lost point has been reached: the letter leaves with outcome LOST, its record joins the retire buffer, its reservation is released and every fill stands; a drain that this completes sets its pocket's drain target and marks the record with the batch boundary; POCKET_CLOSED and then LETTER_LOST are raised, with the letter's state as its cause (that of a COLLECTING letter, which no run reaches, is log 15); and an engine that waited for a record begins it (R50, R118, R119, R132, R133, R142, R148). Elsewhere nothing is due (log 4). -/
def Obligations.LostExpiryRetiresOldestLetter : Prop :=
  ∀ s : State, s.resetLow = false →
    (∀ l rest, s.transit.letters = l :: rest → s.lostReached l = true →
      ∃ t, exec .lostExpiry s = .next t ∧
        t.transit = { s.transit with letters := rest } ∧
        t.retire = s.retire ++ [⟨s.disposition .lost l, !(s.drainedBy l).isEmpty⟩] ∧
        (∀ p, t.pocket p =
          if l.reserves p then (s.pocket p).released else s.pocket p) ∧
        t.transport = { s.transport with
          stall := if rest = [] then none else s.transport.stall } ∧
        s.HeadBegun t ∧
        s.Raised t ((s.drainedBy l).map t.closedNotice ++
          [⟨.letterLost, 0#8, 0#4,
            match l.state with
              | .collecting => 1#4
              | .awaitPlan => 2#4
              | .decided _ => 3#4,
            l.tag,
            match l.state with
              | .decided d => BitVec.ofNat 32 d.final.val
              | .collecting | .awaitPlan => 0xFFFFFFFF#32,
            0#24⟩]) ∧
        { t with
          transit := s.transit, transport := s.transport, pockets := s.pockets
          retire := s.retire, chain := s.chain, chainReq := s.chainReq, notice := s.notice
          noticeReq := s.noticeReq } = s) ∧
    ((∀ l, s.transit.letters.head? = some l → s.lostReached l = false) →
      exec .lostExpiry s = .next s)

/-- DECIDE_EXPIRY of the watched letter: it is decided by the rules of chapter 5 and its final pocket reserved, or during a load it waits for the plan and no pocket is reserved; then each station still waited for that has not reported it counts a miss, in ascending order, and at the miss limit becomes DEGRADED with a STATION_DEGRADED notice; and where a station has, every COLLECTING letter is tested in list order under the stations as they then stand, those that are ready being resolved with their reservations (R49, R86, R87, R94, R96, R105, R108). Where no watched letter's decide point has been reached nothing is due (log 4). -/
def Obligations.DecideExpiryDecidesAndCountsMisses : Prop :=
  (∀ (s : State) (before after : List Letter) (l : Letter), s.resetLow = false →
    s.transit.letters = before ++ l :: after → (∀ x ∈ before, x.state ≠ .collecting) →
    l.state = .collecting → s.decideReached l = true →
    ∃ t l' after' reserved, exec .decideExpiry s = .next t ∧
      (s.plan.state = .loading → l' = { l with state := .awaitPlan } ∧ reserved = s.pockets) ∧
      (∀ sum d, s.plan.state ≠ .loading → sum = summarize l.reads →
        d = decideLetter s.plan s.pockets l sum →
        l' = { l with
          state := .decided d, accountKey := sum.key, reasonClass := sum.reason
          forwardPresent := sum.forward } ∧
        reserved = s.pockets.set d.final.val { s.pocket d.final with
          inFlight := (s.pocket d.final).inFlight + 1 } d.final.isLt) ∧
      (∀ st, t.station st =
        if missCounted l st s then
          { s.station st with
            misses := satSucc 15 (s.station st).misses
            expectation :=
              if s.plan.missLimit ≤ satSucc 15 (s.station st).misses then .degraded
              else (s.station st).expectation }
        else s.station st) ∧
      (∀ st, missCounted l st s = true ↔
        (s.station st).framing ≠ .off ∧ (s.station st).expectation = .expected ∧
        l.reported[st] = false) ∧
      (∀ degraded : List StationIx,
        degraded = (List.finRange 4).filter (fun st => missCounted l st s &&
          decide (s.plan.missLimit ≤ satSucc 15 (s.station st).misses)) →
        (t.pockets, after') = (if degraded = [] then (reserved, after)
          else resolveList s.plan
            (fun x => decide (x.state = .collecting) && earlyReady t.stations x) reserved after) ∧
        s.Raised t (degraded.map fun st =>
          ⟨.stationDegraded, BitVec.ofNat 8 st.val, 1#4, 0#4,
            BitVec.ofNat 16 (t.station st).misses, l.tag.setWidth 32, 0#24⟩)) ∧
      t.transit = { s.transit with letters := before ++ l' :: after' } ∧
      { t with
        transit := s.transit, stations := s.stations, pockets := s.pockets
        notice := s.notice, noticeReq := s.noticeReq } = s) ∧
  (∀ s : State, (∀ l, s.decideWatch = some l → s.decideReached l = false) →
    exec .decideExpiry s = .next s)

/-- START on a STOPPED line with a VALID plan: RUNNING; the monitor runs if letters are in transit; FEED_HOLD is released unless the occupancy latch or pocket 0 holds it; LINE_STATE, FEED_HOLD and the acknowledgment follow in that order (R54, R56, R159). STOP: a RUNNING or STALLED line goes to STOPPED, its monitor stops and FEED_HOLD is asserted; on a STOPPED line nothing changes but the acknowledgment; the transit list, the entry assembly, the retire buffer and the pockets stand (R55). The level of FEED_HOLD, and its notice with the level as result and the conditions LINE, OCCUPANCY and REJECT_FULL as argument, are those of R56. -/
def Obligations.StartAndStopMoveLine : Prop :=
  (∀ s : State, s.holdReject =
    (s.plan.layout.isSome && (s.pocket 0).capacity.any fun c => decide (c ≤ (s.pocket 0).fill))) ∧
  (∀ s : State, s.holdLevel =
    (s.transport.line != .running || s.transport.occupancy || s.holdReject)) ∧
  (∀ s : State, s.feedHoldNotice = ⟨.feedHold, 0#8, if s.holdLevel then 1#4 else 0#4, 0#4,
    BitVec.ofNat 16 ((s.transport.line != .running).toNat + 2 * s.transport.occupancy.toNat +
      4 * s.holdReject.toNat), 0#32, 0#24⟩) ∧
  (∀ s : State, s.Ready → s.transport.line = .stopped → s.plan.state = .valid →
     ∃ t, exec .start s = .next t ∧
       t.transport = { s.transport with
         line := .running
         stall := if s.transit.letters = [] then none else some 0
         feedHold := s.transport.occupancy || s.holdReject } ∧
       s.TakenTo t .start 0#32 ∧
       s.Raised t
         ([⟨.lineState, 0#8, 1#4, 1#4, 0#16, 0#32, 0#24⟩] ++
           (if t.transport.feedHold = s.transport.feedHold then [] else [t.feedHoldNotice]) ++
           [ackNotice t.cmd.last]) ∧
       { t with
         transport := s.transport, sweep := s.sweep, cmd := s.cmd, notice := s.notice
         noticeReq := s.noticeReq } = s) ∧
  (∀ s : State, s.Ready → ∃ t, exec .stop s = .next t ∧
     t.transport = (if s.transport.line = .stopped then s.transport
       else { s.transport with line := .stopped, stall := none, feedHold := true }) ∧
     s.TakenTo t .stop 0#32 ∧
     s.Raised t
       ((if s.transport.line = .stopped then []
         else ⟨.lineState, 0#8, 0#4, 2#4, BitVec.ofNat 16 s.transport.line.code, 0#32, 0#24⟩ ::
           if s.transport.feedHold then [] else [t.feedHoldNotice]) ++
         [ackNotice t.cmd.last]) ∧
     { t with
       transport := s.transport, sweep := s.sweep, cmd := s.cmd, notice := s.notice
       noticeReq := s.noticeReq } = s)

/-- PURGE: every letter leaves in list order with outcome PURGED, its record joining the retire buffer; every reservation is released, no fill changes; each drain completes at the departure of the last letter in flight to its pocket, which takes its drain target, the letter's record being marked with the batch boundary and POCKET_CLOSED raised; the monitor stops; an engine that waited for a record begins it; the acknowledgment carries the number purged (R118, R120, R121, R132, R133, R142, R148). -/
def Obligations.PurgeEmptiesTransitList : Prop :=
  ∀ s : State, s.Ready → ∃ t, exec .purge s = .next t ∧
    t.transit = { s.transit with letters := [] } ∧
    t.retire = s.retire ++ (s.transit.letters.zip (s.drainsInTurn s.transit.letters)).map
      (fun x => ⟨s.disposition .purged x.1, !x.2.isEmpty⟩) ∧
    (∀ p, t.pocket p = { s.pocket p with
      inFlight := (s.pocket p).inFlight - s.reserved p
      state := if 0 < s.reserved p ∧ (s.pocket p).inFlight ≤ s.reserved p then
          (s.pocket p).state.drained
        else (s.pocket p).state }) ∧
    t.transport = { s.transport with
      stall := if s.transit.letters = [] then s.transport.stall else none } ∧
    (s.transit.letters = [] → t.chain = s.chain ∧ t.chainReq = s.chainReq) ∧
    (s.transit.letters ≠ [] → s.HeadBegun t) ∧
    s.TakenTo t .purge (BitVec.ofNat 32 s.transit.letters.length) ∧
    s.Raised t
      ((s.drainsInTurn s.transit.letters).flatten.map t.closedNotice ++ [ackNotice t.cmd.last]) ∧
    { t with
      transit := s.transit, transport := s.transport, pockets := s.pockets, retire := s.retire
      chain := s.chain, chainReq := s.chainReq, sweep := s.sweep, cmd := s.cmd
      notice := s.notice, noticeReq := s.noticeReq } = s

/-! ### Entries -/

/-- The entry assembly: INDUCTION_RING_WRITE of a word that does not complete an entry (R58). -/
def Obligations.InductionAssemblyFollowsWrites : Prop :=
  (∀ (s : State) (offset : Nat), s.inInductionRing offset = true ↔
    ∃ l, s.plan.layout = some l ∧ offset < 2 * l.inductionCount) ∧
  ∀ (s : State) (offset : Nat) (data : Word) (e : Enables), s.resetLow = false →
    s.inInductionRing offset = true →
    (∀ i w, s.transit.assembly = .holding i w → ¬(e = 0xF#4 ∧ offset = 2 * i + 1)) →
    ∃ t, exec (.inductionRingWrite offset data e) s = .next t ∧
      t.transit = { s.transit with
        assembly := if e = 0xF#4 ∧ offset % 2 = 0 then .holding (offset / 2) data
          else .waiting } ∧
      (∀ held, held = (match s.transit.assembly with
          | .waiting => none
          | .holding i _ => some i) →
        s.Raised t
          (if held = none ∧ e = 0xF#4 ∧ offset % 2 = 0 then []
          else
            [⟨.inductionFraming, 0#8, 0#4, if e = 0xF#4 then 1#4 else 2#4,
              BitVec.ofNat 16 (offset / 2),
              (held.map (BitVec.ofNat 32)).getD 0xFFFFFFFF#32, 0#24⟩])) ∧
      { t with transit := s.transit, notice := s.notice, noticeReq := s.noticeReq } = s

/-- The second word of the held record completes an entry that passes R60: the letter joins the tail as COLLECTING with the fields of R61, the last entered tag and the gap count are set, the occupancy latch and FEED_HOLD are evaluated, with a notice of a changed level and no other, and the first letter of a RUNNING line restarts the monitor (R56, R57, R60, R61). -/
def Obligations.EntryTaken : Prop :=
  (∀ s : State, s.transitCount = s.transit.letters.length ∧ s.retireCount = s.retire.length ∧
    s.occupancySum = s.transit.letters.length + s.retire.length) ∧
  ∀ (s : State) (i : Nat) (first data : Word) (e : Entry), s.resetLow = false →
    s.inInductionRing (2 * i + 1) = true → s.transit.assembly = .holding i first →
    s.transport.line ≠ .stopped → entryOf first data = some e →
    s.transit.letters.length < 32 → s.transit.letters.length + s.retire.length < 64 →
    (∀ last, s.transit.lastTag = some last → tagOlder last e.tag = true) →
    (∀ l ∈ s.transit.letters, slotOf l.tag ≠ slotOf e.tag) →
    ∃ t, exec (.inductionRingWrite (2 * i + 1) data 0xF#4) s = .next t ∧
      t.transit = ⟨s.transit.letters ++
        [{ tag := e.tag, entryPos := s.transport.position, lengthClass := e.lengthClass
           double := e.double
           close := (s.transit.gap.map (fun g =>
             decide (g < (s.plan.layout.map Layout.minGap).getD 0))).getD false
           state := .collecting, reads := [], reported := Vector.replicate 4 false
           overrun := false, lateReads := 0, accountKey := none, reasonClass := 0#4
           forwardPresent := false }], .waiting, some e.tag, some 0⟩ ∧
      t.transport.occupancy =
        (if 48 ≤ t.occupancySum then true
         else if t.occupancySum ≤ 39 then false else s.transport.occupancy) ∧
      t.transport.feedHold = t.holdLevel ∧
      t.transport.stall =
        (if s.transit.letters = [] then (if s.transport.line = .running then some 0 else none)
         else s.transport.stall) ∧
      t.transport.line = s.transport.line ∧ t.transport.position = s.transport.position ∧
      s.Raised t
        (if t.transport.feedHold = s.transport.feedHold then [] else [t.feedHoldNotice]) ∧
      { t with
        transit := s.transit, transport := s.transport, notice := s.notice
        noticeReq := s.noticeReq } = s

/-- A completed entry that fails a check of R60 changes nothing in the list: the assembly waits again, and an UNTRACKED_ENTRY notice carries the first check that failed, in the order STOPPED, BAD_ENTRY, FULL, TAG_ORDER, DUPLICATE (R60). An entry record is the tag, the length class and DOUBLE at their bits of 10.4, every reserved bit 0 and length class 3 refused (R174). -/
def Obligations.EntryRefused : Prop :=
  (∀ second : Word, entryTag second = second.extractLsb' 0 16) ∧
  (∀ (first second : Word) (e : Entry), entryOf first second = some e ↔
    bitsAt first 3 29 = 0 ∧ bitsAt second 16 16 = 0 ∧
    ∃ c, (bitsAt first 0 2, c) ∈ [(0, LengthClass.short), (1, .normal), (2, .long)] ∧
      e = ⟨second.extractLsb' 0 16, c, bitAt first 2⟩) ∧
  [EntryRefusal.stopped, .badEntry, .full, .tagOrder, .duplicate].map EntryRefusal.code =
    [1#4, 2#4, 3#4, 4#4, 5#4] ∧
  ∀ (s : State) (i : Nat) (first data : Word) (cause : EntryRefusal) (arg : Word),
    s.resetLow = false → s.inInductionRing (2 * i + 1) = true →
    s.transit.assembly = .holding i first →
    ((cause = .stopped ∧ arg = 0#32 ∧ s.transport.line = .stopped) ∨
     (s.transport.line ≠ .stopped ∧ cause = .badEntry ∧ arg = 0#32 ∧
       entryOf first data = none) ∨
     (s.transport.line ≠ .stopped ∧ cause = .full ∧
       (s.transitCount = 32 ∨ s.occupancySum = 64) ∧ (entryOf first data).isSome = true ∧
       arg = field s.transitCount 0 ||| field s.retireCount 8) ∨
     (s.transport.line ≠ .stopped ∧ cause = .tagOrder ∧ s.transitCount ≠ 32 ∧
       s.occupancySum ≠ 64 ∧ (entryOf first data).isSome = true ∧
       ∃ last, s.transit.lastTag = some last ∧ tagOlder last (entryTag data) = false ∧
         arg = last.setWidth 32) ∨
     (s.transport.line ≠ .stopped ∧ cause = .duplicate ∧ s.transitCount ≠ 32 ∧
       s.occupancySum ≠ 64 ∧ (entryOf first data).isSome = true ∧
       (∀ last, s.transit.lastTag = some last → tagOlder last (entryTag data) = true) ∧
       ∃ l, s.letterBySlot (slotOf (entryTag data)) = some l ∧ arg = l.tag.setWidth 32)) →
    ∃ t, exec (.inductionRingWrite (2 * i + 1) data 0xF#4) s = .next t ∧
      t.transit = { s.transit with assembly := .waiting } ∧
      s.Raised t
        [⟨.untrackedEntry, 0#8, 0#4, cause.code, entryTag data, arg, 0#24⟩] ∧
      { t with transit := s.transit, notice := s.notice, noticeReq := s.noticeReq } = s

/-! ### Read stations -/

/-- The record assembly: an OFF context discards its snoops; SEEK waits for a word 0; a context that collects takes the word it expects. Nothing else in the part changes (R73, R74). -/
def Obligations.StationAssemblyCollects : Prop :=
  (∀ (s : State) (st : StationIx), s.station st = s.stations[st] ∧ s.stationSlots st =
    match s.plan.layout with
    | some l => if l.stationPresent st then l.stationCount st else 0
    | none => 0) ∧
  ∀ (s : State) (st : StationIx) (offset : Nat) (data : Word) (e : Enables),
    s.resetLow = false → offset < 8 * s.stationSlots st →
    ((s.station st).framing = .off → exec (.stationRingWrite st offset data e) s = .next s) ∧
    ((s.station st).framing ≠ .off → (s.station st).assembly = .seek →
      exec (.stationRingWrite st offset data e) s = .next { s with
        stations := s.stations.set st.val { s.station st with
          assembly := if e = 0xF#4 ∧ offset % 8 = 0 then .collecting (offset / 8) [data]
            else .seek } st.isLt }) ∧
    (∀ slot ws, (s.station st).framing ≠ .off → (s.station st).assembly = .collecting slot ws →
      ws.length < 7 → e = 0xF#4 → offset = 8 * slot + ws.length →
      exec (.stationRingWrite st offset data e) s = .next { s with
        stations := s.stations.set st.val { s.station st with
          assembly := .collecting slot (ws ++ [data]) } st.isLt })

/-- An ALIGN reject: the reject counter rises, the assembly begins anew, and a LOCKED station loses its lock with a RECORD_REJECT and a STATION_STATE notice (R75, R81). A complete record that a check rejects: in HUNT the reject counter alone rises; in LOCKED a RECORD_REJECT is raised and the fault run rises, and at 3 the lock ends; the assembly goes on in the next slot (R74, R79, R80, R81). -/
def Obligations.RejectedRecordsCounted : Prop :=
  (∀ limit n : Nat, satSucc limit n = if n < limit then n + 1 else n) ∧
  [RejectCause.align, .crc, .badRecord, .stray, .order].map RejectCause.code =
    [1#4, 2#4, 3#4, 4#4, 5#4] ∧
  (∀ (slot : Nat) (x : Station),
    (∀ cause, cause ≠ .order → rejectArg cause slot x = BitVec.ofNat 32 slot) ∧
    (∀ last, x.lastTag = some last → rejectArg .order slot x = last.setWidth 32)) ∧
  (∀ (s : State) (st : StationIx) (offset slot : Nat) (ws : List Word) (data : Word)
     (e : Enables), s.resetLow = false → offset < 8 * s.stationSlots st →
     (s.station st).framing ≠ .off → (s.station st).assembly = .collecting slot ws →
     ¬(e = 0xF#4 ∧ offset = 8 * slot + ws.length) →
     ∃ t, exec (.stationRingWrite st offset data e) s = .next t ∧
       t.stations = s.stations.set st.val { s.station st with
         framing := .hunt
         assembly := if e = 0xF#4 ∧ offset % 8 = 0 then .collecting (offset / 8) [data] else .seek
         faultRun := if (s.station st).framing = .locked then 0 else (s.station st).faultRun
         rejects := satSucc 65535 (s.station st).rejects } st.isLt ∧
       s.Raised t
         (if (s.station st).framing = .locked then
           [⟨.recordReject, BitVec.ofNat 8 st.val, 0#4, 1#4, BitVec.ofNat 16 offset,
               BitVec.ofNat 32 (8 * slot + ws.length), 0#24⟩,
             ⟨.stationState, BitVec.ofNat 8 st.val, 1#4, 2#4,
               BitVec.ofNat 16 (2 + 16 * (s.station st).expectation.code), 0#32, 0#24⟩]
         else []) ∧
       { t with stations := s.stations, notice := s.notice, noticeReq := s.noticeReq } = s) ∧
  (∀ (s : State) (st : StationIx) (slot : Nat) (ws : List Word) (data : Word)
     (cause : RejectCause), s.resetLow = false → 8 * slot + 7 < 8 * s.stationSlots st →
     (s.station st).framing ≠ .off → (s.station st).assembly = .collecting slot ws →
     ws.length = 7 → s.recordFault st (ws ++ [data]) = some cause →
     ∃ t, exec (.stationRingWrite st (8 * slot + 7) data 0xF#4) s = .next t ∧
       t.stations = s.stations.set st.val { s.station st with
         framing := if (s.station st).framing = .locked ∧ (s.station st).faultRun < 2 then .locked
           else .hunt
         assembly := .collecting ((slot + 1) % s.stationSlots st) []
         faultRun :=
           if (s.station st).framing = .locked then
             if (s.station st).faultRun < 2 then (s.station st).faultRun + 1 else 0
           else (s.station st).faultRun
         rejects := satSucc 65535 (s.station st).rejects } st.isLt ∧
       s.Raised t
         (if (s.station st).framing = .locked then
           ⟨.recordReject, BitVec.ofNat 8 st.val, 0#4, cause.code,
               recordTag (ws ++ [data]), rejectArg cause slot (s.station st), 0#24⟩ ::
             (if (s.station st).faultRun < 2 then []
             else [⟨.stationState, BitVec.ofNat 8 st.val, 1#4, 3#4,
               BitVec.ofNat 16 (2 + 16 * (s.station st).expectation.code), 0#32, 0#24⟩])
         else []) ∧
       { t with stations := s.stations, notice := s.notice, noticeReq := s.noticeReq } = s)

/-- The checks of a complete record, in their order: CRC, BAD_RECORD, STRAY, and ORDER while LOCKED (R76 to R78). -/
def Obligations.RecordChecksInOrder : Prop :=
  (∀ (ws : List Word) (k : Nat), recordWord ws k = ws.getD k 0#32) ∧
  (∀ ws : List Word, recordCrcGood ws = true ↔
    crc16 (wordsBytes (ws.take 7)) = (recordWord ws 7).extractLsb' 0 16) ∧
  (∀ (st : StationIx) (ws : List Word), recordMalformed st ws = true ↔
    bitsAt (recordWord ws 0) 16 2 ≠ st.val ∨ 4 ≤ bitsAt (recordWord ws 0) 18 3 ∨
    bitsAt (recordWord ws 0) 24 8 ≠ 0 ∨ bitsAt (recordWord ws 7) 16 16 ≠ 0 ∨
    (bitsAt (recordWord ws 0) 18 3 = 2 ∧ bitAt (recordWord ws 1) 0 = false)) ∧
  ∀ (s : State) (st : StationIx) (ws : List Word),
    (s.recordFault st ws = some .crc ↔ recordCrcGood ws = false) ∧
    (s.recordFault st ws = some .badRecord ↔
      recordCrcGood ws = true ∧ recordMalformed st ws = true) ∧
    (s.recordFault st ws = some .stray ↔
      recordCrcGood ws = true ∧ recordMalformed st ws = false ∧
      ∀ l ∈ s.transit.letters, l.tag ≠ (recordWord ws 0).extractLsb' 0 16) ∧
    (s.recordFault st ws = some .order ↔
      recordCrcGood ws = true ∧ recordMalformed st ws = false ∧
      (∃ l ∈ s.transit.letters, l.tag = (recordWord ws 0).extractLsb' 0 16) ∧
      (s.station st).framing = .locked ∧
      ∃ last, (s.station st).lastTag = some last ∧
        tagOlder ((recordWord ws 0).extractLsb' 0 16) last = true) ∧
    s.recordFault st ws ≠ some .align

/-- A good record: the station locks or stays LOCKED with fault run 0, the read it builds reaches the letter of its tag, and LAST marks the station as reported, returns its miss counter to 0 and tests the letter, which is resolved if its early condition then holds. No other letter changes (R79, R80, R82, R84, R85). That no two letters share a slot is an invariant (StepsKeepLimits). -/
def Obligations.GoodRecordReachesLetter : Prop :=
  (∀ (st : StationIx) (x : Letter),
    x.report st = { x with reported := x.reported.set st.val true st.isLt }) ∧
  ∀ (s : State) (st : StationIx) (slot : Nat) (ws : List Word) (data : Word)
    (before after : List Letter) (l : Letter),
    s.resetLow = false → 8 * slot + 7 < 8 * s.stationSlots st →
    (s.station st).framing ≠ .off → (s.station st).assembly = .collecting slot ws →
    ws.length = 7 → s.recordFault st (ws ++ [data]) = none →
    s.transit.letters = before ++ l :: after → l.tag = recordTag (ws ++ [data]) →
    s.SlotsDistinct →
    ∃ t l1, exec (.stationRingWrite st (8 * slot + 7) data 0xF#4) s = .next t ∧
      t.stations = s.stations.set st.val { s.station st with
        framing := .locked
        assembly := .collecting ((slot + 1) % s.stationSlots st) []
        misses := if recordLast (ws ++ [data]) then 0 else (s.station st).misses
        faultRun := 0
        lastTag := some l.tag } st.isLt ∧
      l1 = (match recordRead st s.plan.minGrade (ws ++ [data]) with
        | some r => l.takeRead r
        | none => l) ∧
      (recordLast (ws ++ [data]) = false →
        t.transit.letters = before ++ l1 :: after ∧ t.pockets = s.pockets) ∧
      (recordLast (ws ++ [data]) = true →
        ¬(l.state = .collecting ∧ earlyReady t.stations (l1.report st) = true) →
        t.transit.letters = before ++ l1.report st :: after ∧ t.pockets = s.pockets) ∧
      (recordLast (ws ++ [data]) = true → l.state = .collecting →
        earlyReady t.stations (l1.report st) = true →
        t.transit.letters =
          before ++ (resolveLetter s.plan s.pockets (l1.report st)).2 :: after ∧
        t.pockets = (resolveLetter s.plan s.pockets (l1.report st)).1) ∧
      s.Raised t
        (if (s.station st).framing = .hunt then
          [⟨.stationState, BitVec.ofNat 8 st.val, 2#4, 1#4,
            BitVec.ofNat 16 (1 + 16 * (s.station st).expectation.code), l.tag.setWidth 32, 0#24⟩]
        else []) ∧
      { t with
        transit := { t.transit with letters := s.transit.letters }, stations := s.stations
        pockets := s.pockets, notice := s.notice, noticeReq := s.noticeReq } = s

/-- How a read reaches a letter: a COLLECTING or AWAIT_PLAN letter keeps its first reads and puts a read beyond the fourth in the fourth's place, with the overrun flag; a DECIDED letter counts it late (R84). A NOREAD record builds no read (R82). The read of a record carries its station, its grade and the content of its kind, at the bits of 10.4 (R82). -/
def Obligations.ReadsJoinReadSet : Prop :=
  (∀ ws : List Word, recordTag ws = (recordWord ws 0).extractLsb' 0 16 ∧
    recordKind ws = bitsAt (recordWord ws 0) 18 3 ∧
    recordGrade ws = bitsAt (recordWord ws 0) 21 2 ∧
    recordLast ws = bitAt (recordWord ws 0) 23) ∧
  (∀ (st : StationIx) (minGrade : Nat) (ws : List Word) (r : Read),
    recordRead st minGrade ws = some r → r.station = st ∧ r.grade = recordGrade ws) ∧
  (∀ (st : StationIx) (minGrade : Nat) (ws : List Word) (b : ReadBody),
    (recordRead st minGrade ws).map Read.body = some b ↔
      (recordKind ws = 0 ∧ b = .account (recordKey ws) (recordCheck ws)) ∨
      (recordKind ws = 1 ∧ b = .endorse ((recordWord ws 1).extractLsb' 0 8)) ∨
      (recordKind ws = 2 ∧ b = .forward)) ∧
  (∀ (r : Read) (l : Letter), l.state = .collecting ∨ l.state = .awaitPlan →
    (l.reads.length < 4 → l.takeRead r = { l with reads := l.reads ++ [r] }) ∧
    (∀ a b c d, l.reads = [a, b, c, d] →
      l.takeRead r = { l with reads := [a, b, c, r], overrun := true })) ∧
  (∀ (r : Read) (l : Letter) (d : Decision), l.state = .decided d →
    l.takeRead r = { l with lateReads := if l.lateReads < 15 then l.lateReads + 1
                                         else l.lateReads }) ∧
  (∀ (st : StationIx) (g : Nat) (ws : List Word), recordKind ws = 3 → recordRead st g ws = none)

/-- The check digit of an account code: it holds when all 18 digits lie in 0 to 9 and it equals (10 − (weighted sum mod 10)) mod 10, odd positions weighted by 3; the code of the Introduction's example holds, and with cycle 41 in place of 14 it does not (R83). An account code is packed four bits to a digit, digit 1 in bits 3:0 of word 1, the check digit in bits 7:4 of word 3 (10.1). -/
def Obligations.CheckDigitHolds : Prop :=
  (∀ ws : List Word, recordCheck ws = (recordWord ws 3).extractLsb' 4 4 ∧
    recordKey ws = (recordWord ws 3).extractLsb' 0 4 ++ recordWord ws 2 ++ recordWord ws 1) ∧
  (∀ (key : AccountKey) (n : Nat), keyDigit key n = (key.extractLsb' (4 * n) 4).toNat) ∧
  (∀ (key : AccountKey) (check : BitVec 4), accountCodeGood key check = true ↔
    (∀ n < 17, keyDigit key n ≤ 9) ∧ check.toNat ≤ 9 ∧
    check.toNat = (10 - (3 * (keyDigit key 0 + keyDigit key 2 + keyDigit key 4 + keyDigit key 6 +
      keyDigit key 8 + keyDigit key 10 + keyDigit key 12 + keyDigit key 14 + keyDigit key 16) +
      (keyDigit key 1 + keyDigit key 3 + keyDigit key 5 + keyDigit key 7 + keyDigit key 9 +
      keyDigit key 11 + keyDigit key 13 + keyDigit key 15)) % 10) % 10) ∧
  (∀ (st : StationIx) (minGrade : Nat) (ws : List Word) (r : Read),
    recordKind ws = 0 → recordRead st minGrade ws = some r →
    (r.valid = true ↔
      minGrade ≤ recordGrade ws ∧ accountCodeGood (recordKey ws) (recordCheck ws) = true)) ∧
  accountCodeGood 0x30226291830004170#68 4#4 = true ∧
  accountCodeGood 0x30226291830001470#68 4#4 = false

/-- STATION_DISABLE, STATION_ENABLE and STATION_RESTART of a present station, where its framing admits the command: the context, the STATION_STATE notice, the test of every COLLECTING letter in list order, and the acknowledgment (R89 to R92). STATION_DISABLE of an OFF station only acknowledges. -/
def Obligations.StationCommandsTaken : Prop :=
  (∀ (s : State) (st : StationIx), s.stationAbsent st = true ↔
    ∀ l, s.plan.layout = some l → l.stationPresent st = false) ∧
  ∀ (s : State) (st : StationIx), s.Ready → s.stationAbsent st = false →
    ((s.station st).framing ≠ .off → ∃ t, exec (.stationDisable st) s = .next t ∧
      t.stations = s.stations.set st.val { s.station st with
        framing := .off, assembly := .seek, faultRun := 0, lastTag := none } st.isLt ∧
      ((s.station st).expectation = .expected → (t.pockets, t.transit.letters) =
        resolveList s.plan (fun l => l.collecting && earlyReady t.stations l) s.pockets
          s.transit.letters) ∧
      ((s.station st).expectation = .degraded →
        t.pockets = s.pockets ∧ t.transit = s.transit) ∧
      s.TakenTo t (.stationDisable st) (BitVec.ofNat 32 st.val) ∧
      s.Raised t
        [⟨.stationState, BitVec.ofNat 8 st.val, 0#4, 5#4, BitVec.ofNat 16
          ((s.station st).framing.code + 16 * (s.station st).expectation.code), 0#32, 0#24⟩,
          ackNotice t.cmd.last] ∧
      { t with
        transit := { t.transit with letters := s.transit.letters }, stations := s.stations
        pockets := s.pockets, sweep := s.sweep, cmd := s.cmd, notice := s.notice
        noticeReq := s.noticeReq } = s) ∧
    ((s.station st).framing = .off → ∃ t, exec (.stationDisable st) s = .next t ∧
      s.TakenTo t (.stationDisable st) (BitVec.ofNat 32 st.val) ∧
      s.Raised t [ackNotice t.cmd.last] ∧
      { t with
        sweep := s.sweep, cmd := s.cmd, notice := s.notice, noticeReq := s.noticeReq } = s) ∧
    (∀ c cause, (c = Command.stationEnable st ∧ cause = 4#4 ∧ (s.station st).framing = .off) ∨
        (c = Command.stationRestart st ∧ cause = 6#4 ∧ (s.station st).framing ≠ .off) →
      ∃ t, exec c.instr s = .next t ∧
      t.stations = s.stations.set st.val
        ⟨.hunt, .expected, .seek, 0, 0, none, (s.station st).rejects⟩ st.isLt ∧
      (t.pockets, t.transit.letters) =
        resolveList s.plan (fun l => l.collecting && earlyReady t.stations l) s.pockets
          s.transit.letters ∧
      s.TakenTo t c (BitVec.ofNat 32 st.val) ∧
      s.Raised t
        [⟨.stationState, BitVec.ofNat 8 st.val, 1#4, cause, BitVec.ofNat 16
          ((s.station st).framing.code + 16 * (s.station st).expectation.code), 0#32, 0#24⟩,
          ackNotice t.cmd.last] ∧
      { t with
        transit := { t.transit with letters := s.transit.letters }, stations := s.stations
        pockets := s.pockets, sweep := s.sweep, cmd := s.cmd, notice := s.notice
        noticeReq := s.noticeReq } = s)

/-! ### Resolution -/

/-- The decision of a letter (R101 to R104): INVALID, DOUBLE, CLOSE and a conflict send it to pocket 0; otherwise the intended pocket if it is available, then its available partner, then pocket 0. -/
def Obligations.DecisionFollowsRules : Prop :=
  ∀ (plan : Plan) (pk : Pockets) (l : Letter) (sum : Summary),
    (plan.state = .invalid → decideLetter plan pk l sum = ⟨0, 0, .noPlan, false, none⟩) ∧
    (plan.state = .valid → l.double = true →
      decideLetter plan pk l sum = ⟨0, 0, .doubleFeed, false, none⟩) ∧
    (plan.state = .valid → l.double = false → l.close = true →
      decideLetter plan pk l sum = ⟨0, 0, .gap, false, none⟩) ∧
    (plan.state = .valid → l.double = false → l.close = false → sum.clash = true →
      decideLetter plan pk l sum = ⟨0, 0, .conflict, false, none⟩) ∧
    (∀ p cause ri, plan.state = .valid → l.double = false → l.close = false →
      sum.clash = false → intendedPocket plan sum = (p, cause, ri) →
      (pocketAvailable pk p = true → decideLetter plan pk l sum = ⟨p, p, cause, false, ri⟩) ∧
      (∀ q, pocketAvailable pk p = false → pk[p].partner = some q →
        pocketAvailable pk q = true → decideLetter plan pk l sum = ⟨p, q, cause, true, ri⟩) ∧
      (pocketAvailable pk p = false →
        (∀ q, pk[p].partner = some q → pocketAvailable pk q = false) →
        decideLetter plan pk l sum =
          ⟨p, 0, if pk[p].state = .opened then .intendedFull else .intendedClosed, false,
            none⟩)) ∧
    (∀ p, pocketAvailable pk p = true ↔ p = 0 ∨ (pk[p].state = .opened ∧
      ∀ c, pk[p].capacity = some c → pk[p].fill + pk[p].inFlight < c))

/-- The intended pocket is that of the first rule in index order that matches, with cause RULE and its index; without one it is the default pocket of a letter with a key, or the no-read pocket. A rule matches when the bit of the letter's reason class is set in its mask, its forward condition holds, and its selector is ANY or the letter has a key whose selected field, as the number its digits spell, lies in low to high inclusive (R32, R102). -/
def Obligations.FirstMatchingRuleWins : Prop :=
  ∀ (plan : Plan) (sum : Summary),
    (∀ (r : Rule) (i : Nat), plan.rules[i]? = some r →
      r.matches sum.reason sum.forward sum.key = true →
      (∀ j < i, ∀ x, plan.rules[j]? = some x →
        x.matches sum.reason sum.forward sum.key = false) →
      intendedPocket plan sum = (r.pocket, .rule, some i)) ∧
    ((∀ r ∈ plan.rules, r.matches sum.reason sum.forward sum.key = false) →
      intendedPocket plan sum =
        if sum.key.isSome then (plan.defaultPocket, .default, none)
        else (plan.noReadPocket, .noRead, none)) ∧
    (∀ r : Rule, r.matches sum.reason sum.forward sum.key = true ↔
      r.reasons.getLsbD sum.reason.toNat = true ∧
      (r.forward = .any ∨ (r.forward = .present ∧ sum.forward = true) ∨
        (r.forward = .absent ∧ sum.forward = false)) ∧
      (r.selector = .any ∨ ∃ key v, sum.key = some key ∧ r.low ≤ v ∧ v ≤ r.high ∧
        ((r.selector = .district ∧ v = 10 * keyDigit key 0 + keyDigit key 1) ∨
         (r.selector = .cycle ∧ v = 10 * keyDigit key 2 + keyDigit key 3) ∨
         (r.selector = .account ∧ v = 100000000 * keyDigit key 4 + 10000000 * keyDigit key 5 +
           1000000 * keyDigit key 6 + 100000 * keyDigit key 7 + 10000 * keyDigit key 8 +
           1000 * keyDigit key 9 + 100 * keyDigit key 10 + 10 * keyDigit key 11 +
           keyDigit key 12) ∨
         (r.selector = .mailBatch ∧ v = 1000 * keyDigit key 13 + 100 * keyDigit key 14 +
           10 * keyDigit key 15 + keyDigit key 16))))

/-- The reason class and forward present of a read set: the class of the first valid ENDORSE read, later ones taking no part; forward present exactly when a valid FORWARD read is in the set, a FORWARD record without its presence flag being rejected; nothing valid gives no key, class 0 and forward clear (R100). The key of a read set is that of its valid ACCOUNT reads where they agree; absent, with a conflict, where two differ; absent without a conflict where there is none (R99). -/
def Obligations.ReadSummaryFormed : Prop :=
  (∀ (r : Read) (k : AccountKey), r.validKey = some k ↔
    r.valid = true ∧ ∃ check, r.body = .account k check) ∧
  ((∀ (before after : List Read) (r : Read) (c : Byte),
     (∀ x ∈ before, x.valid = true → ∀ y, x.body ≠ .endorse y) →
     r.valid = true → r.body = .endorse c →
     (summarize (before ++ r :: after)).reason = c.setWidth 4) ∧
   (∀ reads : List Read, (∀ x ∈ reads, x.valid = true → ∀ y, x.body ≠ .endorse y) →
     (summarize reads).reason = 0#4) ∧
   (∀ reads : List Read,
     (summarize reads).forward = true ↔ ∃ r ∈ reads, r.valid = true ∧ r.body = .forward) ∧
   (∀ reads : List Read, (∀ r ∈ reads, r.valid = false) →
     summarize reads = ⟨none, false, 0#4, false⟩) ∧
   (∀ (st : StationIx) (minGrade : Nat) (ws : List Word) (r : Read),
     recordRead st minGrade ws = some r →
     (∀ c, r.body = .endorse c → (r.valid = true ↔
       minGrade ≤ r.grade ∧ 1 ≤ c.toNat ∧ c.toNat ≤ 15)) ∧
     (r.body = .forward → (r.valid = true ↔ minGrade ≤ r.grade))) ∧
   (∀ (s : State) (st : StationIx) (ws : List Word), recordKind ws = 2 →
    bitAt (recordWord ws 1) 0 = false → s.recordFault st ws ≠ none)) ∧
  (∀ reads : List Read,
     (∀ k, (summarize reads).key = some k ↔
       (∃ r ∈ reads, r.validKey = some k) ∧ ∀ r ∈ reads, ∀ k', r.validKey = some k' → k' = k) ∧
     ((summarize reads).clash = true ↔
       ∃ r ∈ reads, ∃ x ∈ reads, ∃ k k', r.validKey = some k ∧ x.validKey = some k' ∧ k ≠ k'))

/-- Several letters resolved in one event are resolved in list order, each seeing the reservations before it; a letter that is not ready is passed over (R105, R108). During a load each only waits for the plan (R96). A letter's early condition holds when a station is waited for and every one that is has reported it, a station being waited for in HUNT or LOCKED while EXPECTED (R94). -/
def Obligations.ResolutionsTakeListOrder : Prop :=
  (∀ (plan : Plan) (pk : Pockets) (x : Letter),
    resolveList plan (fun _ => true) pk [x] =
      ((resolveLetter plan pk x).1, [(resolveLetter plan pk x).2])) ∧
  ∀ (plan : Plan) (ready : Letter → Bool) (pk : Pockets) (l : Letter) (ls : List Letter),
    resolveList plan ready pk [] = (pk, []) ∧
    (ready l = false → resolveList plan ready pk (l :: ls) =
      ((resolveList plan ready pk ls).1, l :: (resolveList plan ready pk ls).2)) ∧
    (ready l = true → plan.state = .loading → resolveList plan ready pk (l :: ls) =
      ((resolveList plan ready pk ls).1,
        { l with state := .awaitPlan } :: (resolveList plan ready pk ls).2)) ∧
    (∀ sum d, ready l = true → plan.state ≠ .loading → sum = summarize l.reads →
      d = decideLetter plan pk l sum →
      resolveList plan ready pk (l :: ls) =
        ((resolveList plan ready (reservePocket pk d.final) ls).1,
          { l with state := .decided d, accountKey := sum.key, reasonClass := sum.reason
                   forwardPresent := sum.forward } ::
            (resolveList plan ready (reservePocket pk d.final) ls).2)) ∧
    (∀ p q : PocketIx, (reservePocket pk p)[q] =
      if q = p then { pk[q] with inFlight := pk[q].inFlight + 1 } else pk[q]) ∧
    (∀ stations : Vector Station 4, earlyReady stations l = true ↔
      (∃ st : StationIx, stations[st].framing ≠ .off ∧ stations[st].expectation = .expected) ∧
      ∀ st : StationIx, stations[st].framing ≠ .off → stations[st].expectation = .expected →
        l.reported[st] = true)

/-! ### Dispatch -/

/-- GATE_DISPATCH of a DECIDED letter: the decision word, the letter's departure with outcome DISPATCHED, one place of its final pocket moved from in-flight to fill; POCKET_NEAR_FULL and POCKET_FULL of the new fill, for pocket 0 FEED_HOLD, and where the departure completes a drain the pocket's drain target, POCKET_CLOSED and the batch boundary on the letter's record; an engine that waited for a record begins it, and an emptied list stops the stall monitor (R111 to R113, R118, R121, R132, R133, R142, R148). The disposition record of a departure holds the fields of R121: the decision's, or those of an undecided letter with its read summary (R122). -/
def Obligations.DispatchLandsDecidedLetter : Prop :=
  (∀ s : State, s.gateMaster = s.plan.layout.map fun l => BitVec.ofNat 3 l.gateMaster) ∧
  (∀ (s : State) (o : DispositionOutcome) (l : Letter),
    (∀ d, l.state = .decided d → s.disposition o l =
      { tag := l.tag, outcome := o, intended := some d.intended, final := some d.final
        cause := d.cause, viaPartner := d.viaPartner
        ruleIndex := if d.cause = .rule then d.ruleIndex else none
        batch := (s.pocket d.final).batch, accountKey := l.accountKey
        reasonClass := l.reasonClass, forwardPresent := l.forwardPresent
        readsTaken := l.reads.length, reported := l.reported, lateReads := l.lateReads
        overrun := l.overrun, lengthClass := l.lengthClass, double := l.double
        close := l.close, entryPos := l.entryPos, leavePos := s.transport.position }) ∧
    (l.state = .collecting ∨ l.state = .awaitPlan → s.disposition o l =
      { tag := l.tag, outcome := o, intended := none
        final := if o = .lateDecision then some 0 else none
        cause := if o = .lateDecision then .lateDecision else .none
        viaPartner := false, ruleIndex := none
        batch := if o = .lateDecision then (s.pocket 0).batch else 0#16
        accountKey := (summarize l.reads).key, reasonClass := (summarize l.reads).reason
        forwardPresent := (summarize l.reads).forward
        readsTaken := l.reads.length, reported := l.reported, lateReads := l.lateReads
        overrun := l.overrun, lengthClass := l.lengthClass, double := l.double
        close := l.close, entryPos := l.entryPos, leavePos := s.transport.position })) ∧
  ∀ (s : State) (slot : BitVec 8) (m : MasterNo) (l : Letter) (d : Decision),
    s.resetLow = false → s.backplane.busy = none → s.gateMaster = some m →
    s.letterBySlot slot = some l → l.state = .decided d →
    ∃ t, exec (.gateDispatch slot) s = .next t ∧
      t.backplane = ⟨none, some ⟨m, some (some (GateWord.word
        ⟨true, d.final.val, d.cause, d.viaPartner, false, false, false, false, slot⟩))⟩⟩ ∧
      t.transit = { s.transit with
        letters := s.transit.letters.eraseP (fun x => slotOf x.tag == slot) } ∧
      t.retire = s.retire ++ [⟨s.disposition .dispatched l, !(s.drainedBy l).isEmpty⟩] ∧
      (∀ p, t.pocket p =
        if p = d.final then (s.pocket p).landed.released else s.pocket p) ∧
      t.transport = { s.transport with
        feedHold := if d.final = 0 ∧ (s.pocket 0).fill < 4095 then t.holdLevel
          else s.transport.feedHold
        stall := if t.transit.letters = [] then none else s.transport.stall } ∧
      s.HeadBegun t ∧
      s.Raised t
        ((s.pocket d.final).landingNotices d.final (l.tag.setWidth 32) ++
         (if t.transport.feedHold = s.transport.feedHold then [] else [t.feedHoldNotice]) ++
         (s.drainedBy l).map t.closedNotice) ∧
      { t with
        backplane := s.backplane, transit := s.transit, transport := s.transport
        pockets := s.pockets, retire := s.retire, chain := s.chain, chainReq := s.chainReq
        notice := s.notice, noticeReq := s.noticeReq } = s

/-- GATE_DISPATCH of an undecided letter: LATE_DECISION to pocket 0, whose fill rises with the notices of its new value and of FEED_HOLD; no in-flight count changes and no drain completes; an engine that waited for a record begins it (R113, R114, R118, R148). Of an empty slot: UNTRACKED, pocket 0's fill rises with the notices of its new value and of FEED_HOLD, and an UNTRACKED_DISPATCH notice carries the gate master, the slot and the new fill; no record is made; at 4095 the fill stays and raises no notice of its own (R113, R115). -/
def Obligations.DispatchWithoutDecision : Prop :=
  (∀ (s : State) (slot : BitVec 8) (m : MasterNo) (l : Letter),
     s.resetLow = false → s.backplane.busy = none → s.gateMaster = some m →
     s.letterBySlot slot = some l → l.state = .collecting ∨ l.state = .awaitPlan →
     ∃ t, exec (.gateDispatch slot) s = .next t ∧
       t.backplane = ⟨none, some ⟨m, some (some (GateWord.word
         ⟨true, 0, .lateDecision, false, false, false, false, false, slot⟩))⟩⟩ ∧
       t.transit = { s.transit with
         letters := s.transit.letters.eraseP (fun x => slotOf x.tag == slot) } ∧
       t.retire = s.retire ++ [⟨s.disposition .lateDecision l, false⟩] ∧
       t.pockets = s.pockets.set 0 { s.pocket 0 with
         fill := if (s.pocket 0).fill < 4095 then (s.pocket 0).fill + 1
                 else (s.pocket 0).fill } ∧
       t.transport = { s.transport with
         feedHold := if (s.pocket 0).fill < 4095 then t.holdLevel else s.transport.feedHold
         stall := if t.transit.letters = [] then none else s.transport.stall } ∧
       s.HeadBegun t ∧
       s.Raised t
         ((s.pocket 0).landingNotices 0 (l.tag.setWidth 32) ++
          (if t.transport.feedHold = s.transport.feedHold then [] else [t.feedHoldNotice])) ∧
       { t with
         backplane := s.backplane, transit := s.transit, transport := s.transport
         pockets := s.pockets, retire := s.retire, chain := s.chain, chainReq := s.chainReq
         notice := s.notice, noticeReq := s.noticeReq } = s) ∧
  (∀ (s : State) (slot : BitVec 8) (m : MasterNo), s.resetLow = false →
     s.backplane.busy = none → s.gateMaster = some m → s.letterBySlot slot = none →
     ∃ t n, exec (.gateDispatch slot) s = .next t ∧
       n = (if (s.pocket 0).fill < 4095 then (s.pocket 0).fill + 1 else (s.pocket 0).fill) ∧
       t.backplane = ⟨none, some ⟨m, some (some (GateWord.word
         ⟨true, 0, .none, false, true, false, false, false, slot⟩))⟩⟩ ∧
       t.pockets = s.pockets.set 0 { s.pocket 0 with fill := n } ∧
       t.transport = { s.transport with
         feedHold := if (s.pocket 0).fill < 4095 then t.holdLevel else s.transport.feedHold } ∧
       s.Raised t
         ((if (s.pocket 0).fill < 4095 ∧ (s.pocket 0).threshold ≠ 0 ∧
               n = (s.pocket 0).threshold then
             [⟨.pocketNearFull, 0#8, 0#4, 0#4, BitVec.ofNat 16 n, 0xFFFFFFFF#32, 0#24⟩]
           else []) ++
         (if (s.pocket 0).fill < 4095 ∧ (s.pocket 0).capacity = some n then
             [⟨.pocketFull, 0#8, 0#4, 0#4, BitVec.ofNat 16 n, 0xFFFFFFFF#32, 0#24⟩]
           else []) ++
         (if t.transport.feedHold = s.transport.feedHold then [] else [t.feedHoldNotice]) ++
         [⟨.untrackedDispatch, m.setWidth 8, 0#4, 0#4, slot.setWidth 16, BitVec.ofNat 32 n,
           0#24⟩]) ∧
       { t with
         backplane := s.backplane, transport := s.transport, pockets := s.pockets
         notice := s.notice, noticeReq := s.noticeReq } = s)

/-! ### Pockets and sweeps -/

/-- POCKET_OPEN of a CLOSED pocket and POCKET_ENABLE of a DISABLED one start a new batch; POCKET_DISABLE acts by the pocket's state, and ends the batch of an OPEN pocket with nothing in flight, whose batch record marks the tail of the retire buffer or ends a BATCH_CLOSE descriptor that holds records (R129 to R131, R133, R142). -/
def Obligations.PocketCommandsTaken : Prop :=
  (∀ s : State, s.plan.pocketCount = (s.plan.layout.map Layout.pocketCount).getD 0) ∧
  (∀ (s : State) (p : PocketIx), s.pocket p = s.pockets[p]) ∧
  ∀ (s : State) (p : PocketIx), s.Ready → p ≠ 0 → p.val < s.plan.pocketCount →
    (∀ c, (c = Command.pocketOpen p ∧ (s.pocket p).state = .closed) ∨
        (c = Command.pocketEnable p ∧ (s.pocket p).state = .disabled) →
      ∃ t, exec c.instr s = .next t ∧
        t.pockets = s.pockets.set p.val { s.pocket p with
          state := .opened, fill := 0, batch := (s.pocket p).batch + 1 } p.isLt ∧
        s.TakenTo t c (((s.pocket p).batch + 1).setWidth 32) ∧
        s.Raised t [ackNotice t.cmd.last] ∧
        { t with
          pockets := s.pockets, sweep := s.sweep, cmd := s.cmd, notice := s.notice
          noticeReq := s.noticeReq } = s) ∧
    ((s.pocket p).state = .opened → (s.pocket p).inFlight = 0 →
      ∃ t, exec (.pocketDisable p) s = .next t ∧
        t.pockets = s.pockets.set p.val { s.pocket p with state := .disabled } p.isLt ∧
        s.TakenTo t (.pocketDisable p) 0#32 ∧ t.records = s.records ∧
        s.BatchHanded t ∧
        s.Raised t
          [⟨.pocketClosed, BitVec.ofNat 8 p.val, 0#4, 0#4, (s.pocket p).batch,
            BitVec.ofNat 32 (s.pocket p).fill, 0#24⟩, ackNotice t.cmd.last] ∧
        { t with
          pockets := s.pockets, retire := s.retire, chain := s.chain, chainReq := s.chainReq
          sweep := s.sweep, cmd := s.cmd, notice := s.notice, noticeReq := s.noticeReq } = s) ∧
    (∀ new arg, ((s.pocket p).state = .opened ∧ 0 < (s.pocket p).inFlight ∧
          new = PocketState.draining .disabled ∧ arg = (s.pocket p).inFlight) ∨
        ((∃ target, (s.pocket p).state = .draining target) ∧
          new = PocketState.draining .disabled ∧ arg = (s.pocket p).inFlight) ∨
        ((s.pocket p).state = .closed ∧ new = PocketState.disabled ∧ arg = 0) →
      ∃ t, exec (.pocketDisable p) s = .next t ∧
        t.pockets = s.pockets.set p.val { s.pocket p with state := new } p.isLt ∧
        s.TakenTo t (.pocketDisable p) (BitVec.ofNat 32 arg) ∧
        s.Raised t [ackNotice t.cmd.last] ∧
        { t with
          pockets := s.pockets, sweep := s.sweep, cmd := s.cmd, notice := s.notice
          noticeReq := s.noticeReq } = s)

/-- DRAIN_COMPLETE of a DRAINING pocket with nothing in flight: the pocket takes its drain target, a POCKET_CLOSED notice reports the batch, and the batch record marks the tail of the retire buffer, or with the buffer empty ends a BATCH_CLOSE descriptor that holds records (R132, R133, R142). A pocket that is not such a pocket is left alone (log 4). -/
def Obligations.DrainCompletionEndsBatch : Prop :=
  ∀ (s : State) (p : PocketIx), s.resetLow = false →
    (∀ target, (s.pocket p).state = .draining target → (s.pocket p).inFlight = 0 →
      ∃ t, exec (.drainComplete p) s = .next t ∧
        t.pockets = s.pockets.set p.val { s.pocket p with
          state := match target with
            | .closed => .closed
            | .disabled => .disabled } p.isLt ∧
        s.Raised t
          [⟨.pocketClosed, BitVec.ofNat 8 p.val, if target = .closed then 3#4 else 0#4, 0#4,
            (s.pocket p).batch, BitVec.ofNat 32 (s.pocket p).fill, 0#24⟩] ∧
        t.records = s.records ∧
        (s.retire ≠ [] → (t.retire.getLast?.map (·.boundary)) = some true ∧
          t.retire.dropLast = s.retire.dropLast ∧
          t.chain = s.chain ∧ t.chainReq = s.chainReq) ∧
        (s.retire = [] → s.chain.state = .filling → 0 < s.chain.count →
          s.chain.work = .none → bitAt s.chain.control 18 = true →
          t.chain = { s.chain with work := .completion .batch, pendingFlush := false } ∧
          t.chainReq = s.chainPresents .chainCompletion ⟨s.chain.descAddr + 12#32,
            .write (completionWord false .batch s.chain.count) 0xF#4⟩) ∧
        (s.retire = [] → ¬(s.chain.state = .filling ∧ 0 < s.chain.count ∧
          s.chain.work = .none ∧ bitAt s.chain.control 18 = true) →
          t.chain = s.chain ∧ t.chainReq = s.chainReq) ∧
        { t with
          pockets := s.pockets, retire := s.retire, chain := s.chain, chainReq := s.chainReq
          notice := s.notice, noticeReq := s.noticeReq } = s) ∧
    (((s.pocket p).state = .opened ∨ (s.pocket p).state = .closed ∨
        (s.pocket p).state = .disabled ∨ 0 < (s.pocket p).inFlight) →
      exec (.drainComplete p) s = .next s)

/-- SWEEP_FIRST and SWEEP_LAST build the range, testing the sequence before the argument; a refusal returns the sequence to IDLE (R135, R137). -/
def Obligations.SweepRangeIsBuilt : Prop :=
  (∀ s : State, s.sweepOpen = true ↔ s.sweep ≠ .idle) ∧
  ∀ (s : State) (p : PocketIx), s.Ready →
    ∃ t t', exec (.sweepFirst p) s = .next t ∧ exec (.sweepLast p) s = .next t' ∧
      t.sweep = (if s.sweep = .idle ∧ p.val < s.plan.pocketCount then .firstSet p else .idle) ∧
      t.cmd.last = ⟨0x20#8, if s.sweep ≠ .idle then .seqError
        else if p.val < s.plan.pocketCount then .ok else .badArg, false, none,
        BitVec.ofNat 32 p.val⟩ ∧
      (∀ first, s.sweep = .firstSet first →
        t'.sweep = (if first ≤ p ∧ p.val < s.plan.pocketCount then .rangeSet first p []
          else .idle) ∧
        t'.cmd.last = ⟨0x21#8, if first ≤ p ∧ p.val < s.plan.pocketCount then .ok else .badArg,
          false, none, BitVec.ofNat 32 p.val⟩) ∧
      ((∀ first, s.sweep ≠ .firstSet first) → t'.sweep = .idle ∧
        t'.cmd.last = ⟨0x21#8, .seqError, false, none, BitVec.ofNat 32 p.val⟩) ∧
      (∀ u, u = t ∨ u = t' → u.cmd.ackCount = s.cmd.ackCount + 1 ∧ u.cmd.executing = false ∧
        s.Raised u [ackNotice u.cmd.last] ∧
        { u with
          sweep := s.sweep, cmd := s.cmd, notice := s.notice, noticeReq := s.noticeReq } = s)

/-- SWEEP_EXCLUDE r is taken when the sequence is RANGE_SET, r lies from the first pocket to the last, r is not in the list, and the list holds fewer than 8; when any fails it is refused with SEQ_ERROR and the sequence becomes IDLE. No pocket's state takes part; an exclusion of pocket 0 is taken when 0 lies in the range, and changes no selection of SWEEP_GO (R138). -/
def Obligations.SweepExcludeExtendsList : Prop :=
  (∀ (s : State) (r : PocketIx), s.Ready →
    (∀ first last ex, s.sweep = .rangeSet first last ex → first ≤ r → r ≤ last → r ∉ ex →
      ex.length < 8 →
      ∃ t, exec (.sweepExclude r) s = .next t ∧ t.sweep = .rangeSet first last (ex ++ [r]) ∧
        t.cmd = { s.cmd with
          last := ⟨0x22#8, .ok, false, none, BitVec.ofNat 32 (ex.length + 1)⟩
          ackCount := s.cmd.ackCount + 1 } ∧
        s.Raised t [ackNotice t.cmd.last] ∧
        { t with
          sweep := s.sweep, cmd := s.cmd, notice := s.notice, noticeReq := s.noticeReq } = s) ∧
    (¬(∃ first last ex, s.sweep = .rangeSet first last ex ∧ first ≤ r ∧ r ≤ last ∧ r ∉ ex ∧
        ex.length < 8) →
      ∃ t, exec (.sweepExclude r) s = .next t ∧ t.sweep = .idle ∧
        t.cmd = { s.cmd with
          last := ⟨0x22#8, .seqError, false, none, BitVec.ofNat 32 r.val⟩
          ackCount := s.cmd.ackCount + 1 } ∧
        s.Raised t [ackNotice t.cmd.last] ∧
        { t with
          sweep := s.sweep, cmd := s.cmd, notice := s.notice, noticeReq := s.noticeReq } = s)) ∧
  (∀ (first last : PocketIx) (ex : List PocketIx),
    sweepSelection first last (ex ++ [0]) = sweepSelection first last ex)

/-- SWEEP_GO in RANGE_SET: each selected OPEN pocket becomes CLOSED, its batch ending, or DRAINING to CLOSED where letters are in flight to it; every other pocket stands; in ascending pocket order a POCKET_CLOSED notice is raised for each batch that ends and a SWEEP_SKIP notice for each DISABLED pocket selected; the first batch record that ends a descriptor, or the mark on the tail of the retire buffer, is all that the chain takes of them; the acknowledgment counts the pockets made CLOSED or DRAINING and the sequence returns to IDLE. In IDLE or FIRST_SET it is refused with SEQ_ERROR and no pocket changes (R133, R136, R142). -/
def Obligations.SweepGoClosesSelected : Prop :=
  ∀ s : State, s.Ready →
    (∀ first last ex, s.sweep = .rangeSet first last ex → ∃ t, exec .sweepGo s = .next t ∧
      (∀ selected : List PocketIx, selected = (List.finRange 64).filter
          (fun p => decide (first ≤ p ∧ p ≤ last ∧ p ≠ 0 ∧ p ∉ ex)) →
        s.Raised t
          (selected.flatMap (fun p =>
            match (s.pocket p).state with
            | .opened => if (s.pocket p).inFlight = 0 then [t.closedNotice p] else []
            | .disabled => [⟨.sweepSkip, BitVec.ofNat 8 p.val, 0#4, 0#4, 0#16, 0#32, 0#24⟩]
            | .closed | .draining _ => []) ++ [ackNotice t.cmd.last]) ∧
        ((∃ p ∈ selected, (s.pocket p).state = .opened ∧ (s.pocket p).inFlight = 0) →
          s.BatchHanded t) ∧
        ((∀ p ∈ selected, (s.pocket p).state = .opened → (s.pocket p).inFlight ≠ 0) →
          t.retire = s.retire ∧ t.chain = s.chain ∧ t.chainReq = s.chainReq)) ∧
      (∀ p, t.pocket p =
        if first ≤ p ∧ p ≤ last ∧ p ≠ 0 ∧ p ∉ ex ∧ (s.pocket p).state = .opened then
          { s.pocket p with
            state := if (s.pocket p).inFlight = 0 then .closed else .draining .closed }
        else s.pocket p) ∧
      t.sweep = .idle ∧
      t.cmd = { s.cmd with
        last := ⟨0x23#8, .ok, false, none, BitVec.ofNat 32
          ((List.finRange 64).countP (fun p => decide (first ≤ p ∧ p ≤ last ∧ p ≠ 0 ∧ p ∉ ex ∧
            (s.pocket p).state = .opened)))⟩
        ackCount := s.cmd.ackCount + 1 } ∧
      { t with
        pockets := s.pockets, retire := s.retire, chain := s.chain, chainReq := s.chainReq
        sweep := s.sweep, cmd := s.cmd, notice := s.notice, noticeReq := s.noticeReq } = s) ∧
    ((∀ first last ex, s.sweep ≠ .rangeSet first last ex) → ∃ t, exec .sweepGo s = .next t ∧
      t.sweep = .idle ∧
      t.cmd = { s.cmd with
        last := ⟨0x23#8, .seqError, false, none, 0#32⟩, ackCount := s.cmd.ackCount + 1 } ∧
      s.Raised t [ackNotice t.cmd.last] ∧
      { t with
        sweep := s.sweep, cmd := s.cmd, notice := s.notice, noticeReq := s.noticeReq } = s)

/-! ### The disposition chain -/

/-- CHAIN_START in OFF or FAULT latches the mode and begins the fetch at the base pointer, presenting its first read unless memory still has the engine's previous access (R145); a misaligned address ends it in FAULT, and the CHAIN_STATE notice then carries FETCH as the previous state by the model's reading (log 14). CHAIN_RESUME in HELD re-reads the held descriptor (R146, R147, R152, R155). -/
def Obligations.ChainStartsAndResumes : Prop :=
  (∀ s : State, s.atMemory .chain = true ↔ ∃ g, s.port = some g ∧
    g.job ∈ [Job.chainDesc, .chainReread, .chainRecord, .chainCompletion]) ∧
  ∀ s : State, s.Ready →
    (s.chain.state = .off ∨ s.chain.state = .fault → ∃ t, exec .chainStart s = .next t ∧
      t.chain.mode = (if s.chain.lastWritten then .lastAddress else .hold) ∧
      t.chain.descAddr = s.chain.base ∧ t.chain.count = 0 ∧ t.chain.pendingFlush = false ∧
      (s.chain.base.toNat % 16 = 0 → t.chain = { s.chain with
          state := .fetch, mode := t.chain.mode, descAddr := s.chain.base, count := 0
          pendingFlush := false, fault := .none, work := .descriptor 0 } ∧
        t.chainReq = s.chainPresents .chainDesc ⟨s.chain.base, .read⟩ ∧
        s.Raised t [ackNotice t.cmd.last]) ∧
      (s.chain.base.toNat % 16 ≠ 0 →
        { s.chain with mode := t.chain.mode, descAddr := s.chain.base, count := 0 }.FaultedTo
          t.chain .align ∧ t.chainReq = s.chainReq ∧
        s.Raised t [⟨.chainState, 0#8, 4#4, 4#4, 1#16, s.chain.base, 0#24⟩,
          ackNotice t.cmd.last]) ∧
      s.TakenTo t .chainStart (if s.chain.lastWritten then 1#32 else 0#32) ∧
      { t with
        chain := s.chain, chainReq := s.chainReq, sweep := s.sweep, cmd := s.cmd
        notice := s.notice, noticeReq := s.noticeReq } = s) ∧
    (s.chain.state = .held → s.chain.mode = .hold → ∃ t, exec .chainResume s = .next t ∧
      t.chain = { s.chain with state := .fetch, work := .rereadControl } ∧
      t.chainReq = s.chainPresents .chainReread ⟨s.chain.descAddr, .read⟩ ∧
      s.TakenTo t .chainResume 0#32 ∧ s.Raised t [ackNotice t.cmd.last] ∧
      { t with
        chain := s.chain, chainReq := s.chainReq, sweep := s.sweep, cmd := s.cmd
        notice := s.notice, noticeReq := s.noticeReq } = s)

/-- CHAIN_STOP, by the chain state: a FILLING descriptor ends with STOP, its record write abandoned; a completion being written goes on; FETCH, HELD and FAULT go to OFF at once; in OFF nothing changes. The acknowledgment is raised in every state, behind the CHAIN_STATE notice of a change to OFF (R19, R154, R159). That a STOP completion which waits for the abandoned answer counts as being written, so that a further CHAIN_STOP sets stop after completion, is the model's reading (log 18). -/
def Obligations.ChainStops : Prop :=
  (∀ g : Granted, g.abandonedBy .chain =
    if g.job ∈ [Job.chainDesc, .chainReread, .chainRecord, .chainCompletion] then
      { g with abandoned := true } else g) ∧
  ∀ s : State, s.Ready → ∃ t, exec .chainStop s = .next t ∧ t.retire = s.retire ∧
    (s.chain.state = .off → t.chain = s.chain ∧ t.chainReq = s.chainReq ∧ t.port = s.port ∧
      s.TakenTo t .chainStop 0#32) ∧
    (s.chain.state = .fetch ∨ s.chain.state = .held ∨ s.chain.state = .fault →
      t.chain = { s.chain with state := .off, work := .none, fault := .none } ∧
      t.chainReq = ⟨none, 0⟩ ∧ t.port = s.port.map (Granted.abandonedBy .chain) ∧
      s.TakenTo t .chainStop 0#32 ∧
      s.Raised t
        [⟨.chainState, 0#8, 0#4, 7#4, BitVec.ofNat 16 s.chain.state.code, s.chain.descAddr,
          0#24⟩, ackNotice t.cmd.last]) ∧
    (s.chain.state = .off ∨ s.chain.state = .filling →
      s.Raised t [ackNotice t.cmd.last]) ∧
    (∀ e, s.chain.state = .filling → s.chain.work = .completion e →
      t.chain = { s.chain with stopAfter := true } ∧ t.chainReq = s.chainReq ∧
      t.port = s.port ∧ s.TakenTo t .chainStop 0#32) ∧
    (s.chain.state = .filling → (∀ e, s.chain.work ≠ .completion e) →
      t.chain = { s.chain with work := .completion .stop, pendingFlush := false } ∧
      t.port = s.port.map (Granted.abandonedBy .chain) ∧
      t.chainReq = (if s.atMemory .chain then ⟨none, 0⟩
        else ⟨some ⟨.chainCompletion, ⟨s.chain.descAddr + 12#32,
          .write (completionWord false .stop s.chain.count) 0xF#4⟩⟩, 0⟩) ∧
      s.TakenTo t .chainStop (BitVec.ofNat 32 s.chain.count)) ∧
    { t with
      chain := s.chain, chainReq := s.chainReq, port := s.port, sweep := s.sweep, cmd := s.cmd
      notice := s.notice, noticeReq := s.noticeReq } = s

/-- CHAIN_FLUSH, by the chain state and the work in progress, with its acknowledgment and no other notice (R153, R159). That a STOP completion which waits for an abandoned answer counts as being written, so that the flush has no effect, is the model's reading (log 18). -/
def Obligations.ChainFlushes : Prop :=
  ∀ s : State, s.Ready →
    s.chain.state = .filling ∨ s.chain.state = .fetch ∨ s.chain.state = .held →
    ∃ t, exec .chainFlush s = .next t ∧
    ((s.chain.state ≠ .filling ∨ s.chain.count = 0 ∨ ∃ e, s.chain.work = .completion e) →
      t.chain = s.chain ∧ t.chainReq = s.chainReq ∧ s.TakenTo t .chainFlush 0#32) ∧
    (∀ k, s.chain.state = .filling → 0 < s.chain.count → s.chain.work = .record k →
      t.chain = { s.chain with pendingFlush := true } ∧ t.chainReq = s.chainReq ∧
      s.TakenTo t .chainFlush (BitVec.ofNat 32 s.chain.count)) ∧
    (s.chain.state = .filling → 0 < s.chain.count → s.chain.work = .none →
      t.chain = { s.chain with work := .completion .flush, pendingFlush := false } ∧
      t.chainReq = s.chainPresents .chainCompletion ⟨s.chain.descAddr + 12#32,
        .write (completionWord false .flush s.chain.count) 0xF#4⟩ ∧
      s.TakenTo t .chainFlush (BitVec.ofNat 32 s.chain.count)) ∧
    s.Raised t [ackNotice t.cmd.last] ∧
    { t with
      chain := s.chain, chainReq := s.chainReq, sweep := s.sweep, cmd := s.cmd
      notice := s.notice, noticeReq := s.noticeReq } = s

/-- CHAIN_DESC_READ_DONE: words 0 and 1 are held and the next is read; at word 2 a descriptor with capacity 0 or a misaligned area is refused with its completion word, and any other is FILLING from its first record (R147, R148). CHAIN_REREAD_DONE: the HOLD flag of the re-read word 0 decides, with word 1, whether the engine stays HELD or fetches (R155); a misaligned next address ends that fetch in FAULT, and its CHAIN_STATE notice carries FETCH as the previous state by the model's reading (log 14). -/
def Obligations.DescriptorWordsArrive : Prop :=
  ∀ (s : State) (a : MemAccess) (data : Word),
    (s.port = some ⟨.chainDesc, a, false⟩ → ∃ t, exec (.chainDescReadDone (.ok data)) s = .next t ∧
      t.port = none ∧
      (s.chain.work = .descriptor 0 →
        t.chain = { s.chain with control := data, work := .descriptor 1 } ∧
        t.chainReq = ⟨some ⟨.chainDesc, ⟨s.chain.descAddr + 4#32, .read⟩⟩, 0⟩) ∧
      (s.chain.work = .descriptor 1 →
        t.chain = { s.chain with next := data, work := .descriptor 2 } ∧
        t.chainReq = ⟨some ⟨.chainDesc, ⟨s.chain.descAddr + 8#32, .read⟩⟩, 0⟩) ∧
      (∀ e, s.chain.work = .descriptor 2 →
        (e = EndCause.empty ∧ bitsAt s.chain.control 0 10 = 0) ∨
          (e = EndCause.align ∧ bitsAt s.chain.control 0 10 ≠ 0 ∧ data.toNat % 32 ≠ 0) →
        t.chain = { s.chain with area := data, work := .refusal e } ∧
        t.chainReq = ⟨some ⟨.chainCompletion, ⟨s.chain.descAddr + 12#32,
          .write (completionWord true e 0) 0xF#4⟩⟩, 0⟩) ∧
      (s.chain.work = .descriptor 2 → bitsAt s.chain.control 0 10 ≠ 0 → data.toNat % 32 = 0 →
        (s.retire = [] → t.chain = { s.chain with
          area := data, state := .filling, count := 0, work := .none } ∧
          t.chainReq = s.chainReq) ∧
        (∀ r rest, s.retire = r :: rest → t.chain = { s.chain with
          area := data, state := .filling, count := 0, work := .record 0 } ∧
          t.chainReq = ⟨some ⟨.chainRecord, ⟨data, .write (r.record.word 0) 0xF#4⟩⟩, 0⟩)) ∧
      { t with port := s.port, chain := s.chain, chainReq := s.chainReq } = s) ∧
    (s.port = some ⟨.chainReread, a, false⟩ → ∃ t, exec (.chainRereadDone (.ok data)) s = .next t ∧
      t.port = none ∧
      (s.chain.work = .rereadControl →
        t.chain = { s.chain with
          state := .fetch, work := .rereadNext (bitAt data 16) } ∧
        t.chainReq = ⟨some ⟨.chainReread, ⟨s.chain.descAddr + 4#32, .read⟩⟩, 0⟩ ∧
        s.Raised t []) ∧
      (s.chain.work = .rereadNext true →
        t.chain = { s.chain with state := .held, work := .none } ∧
        t.chainReq = s.chainReq ∧
        s.Raised t [⟨.chainState, 0#8, 3#4, 3#4,
          BitVec.ofNat 16 s.chain.state.code, s.chain.descAddr, 0#24⟩]) ∧
      (s.chain.work = .rereadNext false → data.toNat % 16 = 0 →
        t.chain = { s.chain with
          state := .fetch, descAddr := data, count := 0, pendingFlush := false
          work := .descriptor 0 } ∧
        t.chainReq = ⟨some ⟨.chainDesc, ⟨data, .read⟩⟩, 0⟩ ∧
        s.Raised t []) ∧
      (s.chain.work = .rereadNext false → data.toNat % 16 ≠ 0 →
        { s.chain with descAddr := data, count := 0 }.FaultedTo t.chain .align ∧
        t.chainReq = s.chainReq ∧
        s.Raised t [⟨.chainState, 0#8, 4#4, 4#4, 1#16, data, 0#24⟩]) ∧
      s.NoticeRegistersKept t ∧
      { t with
        port := s.port, chain := s.chain, chainReq := s.chainReq, notice := s.notice
        noticeReq := s.noticeReq } = s)

/-- CHAIN_RECORD_WORD_DONE with OK: the next word of the head record is written; after word 7 the record has left the buffer and is counted, the occupancy latch and FEED_HOLD are evaluated, with a notice of a changed level and no other, and the descriptor ends with BATCH, FULL or FLUSH, in that order of precedence, or the next record is begun (R56, R57, R148, R149). The eight words of a record are those of 10.6: a pocket of NONE is 0xFF, an absent rule index or account key is zero with its flag clear, and every reserved bit is zero (R172, R173, R175). -/
def Obligations.RecordWordsAccepted : Prop :=
  (∀ v lo : Nat, field v lo = BitVec.ofNat 32 v <<< lo) ∧
  (∀ (b : Bool) (n : Nat), flag b n = field b.toNat n) ∧

  (∀ d : Disposition,
    d.word 0 = field d.tag.toNat 0 ||| field d.outcome.code 16 ||| field d.cause.code 20 |||
      flag d.viaPartner 24 ||| flag d.ruleIndex.isSome 25 ||| flag d.accountKey.isSome 26 |||
      flag d.forwardPresent 27 ||| flag d.overrun 28 ∧
    d.word 1 = field ((d.intended.map Fin.val).getD 0xFF) 0 |||
      field ((d.final.map Fin.val).getD 0xFF) 8 ||| field (d.ruleIndex.getD 0) 16 |||
      field d.reasonClass.toNat 24 ∧
    d.word 2 = field d.batch.toNat 0 ||| field d.readsTaken 16 ||| flag d.reported[0] 20 |||
      flag d.reported[1] 21 ||| flag d.reported[2] 22 ||| flag d.reported[3] 23 |||
      field d.lateReads 24 ||| field d.lengthClass.code 28 ||| flag d.double 30 |||
      flag d.close 31 ∧
    d.word 3 = d.entryPos.setWidth 32 ∧ d.word 4 = d.leavePos.setWidth 32 ∧
    (∀ key, d.accountKey = some key → d.word 5 = key.extractLsb' 0 32 ∧
      d.word 6 = key.extractLsb' 32 32 ∧ d.word 7 = (key.extractLsb' 64 4).setWidth 32) ∧
    (d.accountKey = none → d.word 5 = 0#32 ∧ d.word 6 = 0#32 ∧ d.word 7 = 0#32)) ∧
  [DispositionOutcome.dispatched, .lateDecision, .lost, .purged].map DispositionOutcome.code =
    [0, 1, 2, 3] ∧
  [LengthClass.short, .normal, .long].map LengthClass.code = [0, 1, 2] ∧
  [Cause.none, .rule, .default, .noRead, .noPlan, .doubleFeed, .gap, .conflict, .intendedFull,
    .intendedClosed, .lateDecision].map Cause.code = [0, 1, 2, 3, 4, 5, 6, 7, 8, 9, 10] ∧
  ∀ (s : State) (a : MemAccess) (k : Fin 8) (r : Retired) (rest : List Retired),
    s.port = some ⟨.chainRecord, a, false⟩ → s.chain.work = .record k →
    s.chain.state = .filling → s.retire = r :: rest →
    ∃ t, exec (.chainRecordWordDone .ok) s = .next t ∧ t.port = none ∧
      (k ≠ 7 → t.retire = s.retire ∧ t.transport = s.transport ∧
        t.chain = { s.chain with work := .record (k + 1) } ∧
        t.chainReq = ⟨some ⟨.chainRecord, ⟨s.chain.area +
            BitVec.ofNat 32 (32 * s.chain.count + 4 * (k + 1).val),
          .write (r.record.word (k + 1)) 0xF#4⟩⟩, 0⟩) ∧
      (k = 7 → t.retire = rest ∧
        t.transport = { s.transport with
          occupancy :=
            if 48 ≤ t.occupancySum then true
            else if t.occupancySum ≤ 39 then false else s.transport.occupancy
          feedHold := t.holdLevel } ∧
        (∀ e, (e = EndCause.batch ∧ r.boundary = true ∧ bitAt s.chain.control 18 = true) ∨
            (e = EndCause.full ∧ ¬(r.boundary = true ∧ bitAt s.chain.control 18 = true) ∧
              s.chain.count + 1 = bitsAt s.chain.control 0 10) ∨
            (e = EndCause.flush ∧ ¬(r.boundary = true ∧ bitAt s.chain.control 18 = true) ∧
              s.chain.count + 1 ≠ bitsAt s.chain.control 0 10 ∧
              s.chain.pendingFlush = true) →
          t.chain = { s.chain with
            count := s.chain.count + 1, work := .completion e, pendingFlush := false } ∧
          t.chainReq = ⟨some ⟨.chainCompletion, ⟨s.chain.descAddr + 12#32,
            .write (completionWord false e (s.chain.count + 1)) 0xF#4⟩⟩, 0⟩) ∧
        (¬(r.boundary = true ∧ bitAt s.chain.control 18 = true) →
          s.chain.count + 1 ≠ bitsAt s.chain.control 0 10 → s.chain.pendingFlush = false →
          (rest = [] → t.chain = { s.chain with count := s.chain.count + 1, work := .none } ∧
            t.chainReq = s.chainReq) ∧
          (∀ r' rest', rest = r' :: rest' → t.chain = { s.chain with
              count := s.chain.count + 1, work := .record 0 } ∧
            t.chainReq = ⟨some ⟨.chainRecord, ⟨s.chain.area +
              BitVec.ofNat 32 (32 * (s.chain.count + 1)),
              .write (r'.record.word 0) 0xF#4⟩⟩, 0⟩))) ∧
      s.Raised t
        (if t.transport.feedHold = s.transport.feedHold then [] else [t.feedHoldNotice]) ∧
      { t with
        port := s.port, retire := s.retire, transport := s.transport, chain := s.chain
        chainReq := s.chainReq, notice := s.notice, noticeReq := s.noticeReq } = s

/-- CHAIN_COMPLETION_DONE with OK: a NOTIFY descriptor is reported; then the engine goes to OFF after STOP, to HELD by its mode, or to the next descriptor, whose fetch ends in FAULT with cause ALIGN at once where its address is misaligned; the completion of a refused descriptor ends in FAULT with cause EMPTY or ALIGN; CHAIN_DESC_DONE comes before CHAIN_STATE (R145, R147, R150). That the CHAIN_STATE notice of a misaligned fetch carries FETCH as the previous state is the model's reading (log 14). A completion word holds count, end, ERR and COMPLETE at their bits of 10.6 (R143). -/
def Obligations.CompletionWordAccepted : Prop :=
  (∀ v lo : Nat, field v lo = BitVec.ofNat 32 v <<< lo) ∧
  (∀ (b : Bool) (n : Nat), flag b n = field b.toNat n) ∧

  (∀ (err : Bool) (e : EndCause) (count : Nat), completionWord err e count =
    field count 0 ||| field e.code 16 ||| flag err 30 ||| flag true 31) ∧
  [EndCause.full, .flush, .batch, .stop, .empty, .align].map EndCause.code =
    [1, 2, 3, 4, 5, 6] ∧
  ∀ (s : State) (a : MemAccess), s.port = some ⟨.chainCompletion, a, false⟩ →
    ∃ t done, exec (.chainCompletionDone .ok) s = .next t ∧ t.port = none ∧
      t.retire = s.retire ∧
      (∀ e, s.chain.work = .completion e → done = (if bitAt s.chain.control 17 then
        [(⟨.chainDescDone, 0#8, BitVec.ofNat 4 e.code, 0#4, BitVec.ofNat 16 s.chain.count,
          s.chain.descAddr, 0#24⟩ : Notice)] else [])) ∧
      (∀ e, s.chain.work = .completion e → e = .stop ∨ s.chain.stopAfter = true →
        t.chain = { s.chain with state := .off, work := .none, stopAfter := false } ∧
        t.chainReq = s.chainReq ∧
        s.Raised t (done ++ [⟨.chainState, 0#8, 0#4, 7#4,
          BitVec.ofNat 16 s.chain.state.code, s.chain.descAddr, 0#24⟩])) ∧
      (∀ e, s.chain.work = .completion e → e ≠ .stop → s.chain.stopAfter = false →
        (∀ cause, (cause = 1#4 ∧ s.chain.mode = .hold ∧ bitAt s.chain.control 16 = true) ∨
            (cause = 2#4 ∧ s.chain.mode = .lastAddress ∧ s.chain.descAddr = s.chain.last) →
          t.chain = { s.chain with state := .held, work := .none } ∧
          t.chainReq = s.chainReq ∧
          s.Raised t (done ++ [⟨.chainState, 0#8, 3#4, cause,
            BitVec.ofNat 16 s.chain.state.code, s.chain.descAddr, 0#24⟩])) ∧
        ((s.chain.mode = .hold ∧ bitAt s.chain.control 16 = false) ∨
            (s.chain.mode = .lastAddress ∧ s.chain.descAddr ≠ s.chain.last) →
          (s.chain.next.toNat % 16 = 0 →
            t.chain = { s.chain with
              state := .fetch, descAddr := s.chain.next, count := 0, pendingFlush := false
              work := .descriptor 0 } ∧
            t.chainReq = ⟨some ⟨.chainDesc, ⟨s.chain.next, .read⟩⟩, 0⟩ ∧
            s.Raised t done) ∧
          (s.chain.next.toNat % 16 ≠ 0 →
            { s.chain with descAddr := s.chain.next, count := 0 }.FaultedTo t.chain .align ∧
            t.chainReq = s.chainReq ∧
            s.Raised t (done ++
              [⟨.chainState, 0#8, 4#4, 4#4, 1#16, s.chain.next, 0#24⟩])))) ∧
      (∀ e f cause, s.chain.work = .refusal e →
        (e = EndCause.empty ∧ f = ChainFault.empty ∧ cause = 5#4) ∨
          (e = EndCause.align ∧ f = ChainFault.align ∧ cause = 4#4) →
        s.chain.FaultedTo t.chain f ∧ t.chainReq = s.chainReq ∧
        s.Raised t [⟨.chainState, 0#8, 4#4, cause,
          BitVec.ofNat 16 s.chain.state.code, s.chain.descAddr, 0#24⟩]) ∧
      s.NoticeRegistersKept t ∧
      { t with
        port := s.port, chain := s.chain, chainReq := s.chainReq, notice := s.notice
        noticeReq := s.noticeReq } = s

/-- Memory answers an access of the chain engine with ERROR: the engine is in FAULT with cause MEMORY, the MEMORY flag is set, CHAIN_STATE is raised, and every record stays in the buffer (R19, R147, R151, R154, R155, R170). The answer to an access that the engine has abandoned, OK or ERROR, is discarded: nothing of this happens, and the access that waited for it, a descriptor read or a completion word, is presented (R145, R154). -/
def Obligations.ChainMemoryErrorFaults : Prop :=
  (∀ (s : State) (a : MemAccess) (job : Job) (c : Instr),
    (job = .chainDesc ∧ c = .chainDescReadDone .error) ∨
    (job = .chainReread ∧ c = .chainRereadDone .error) ∨
    (job = .chainRecord ∧ c = .chainRecordWordDone .error) ∨
    (job = .chainCompletion ∧ c = .chainCompletionDone .error) →
    (s.port = some ⟨job, a, false⟩ → ∃ t, exec c s = .next t ∧ t.port = none ∧
      s.chain.FaultedTo t.chain .memory ∧
      (∀ u : State, u = { s with notice := { s.notice with memory := true } } →
        u.Raised t [⟨.chainState, 0#8, 4#4, 6#4,
          BitVec.ofNat 16 s.chain.state.code, s.chain.descAddr, 0#24⟩]) ∧
      { t with
        port := s.port, chain := s.chain, notice := s.notice, noticeReq := s.noticeReq } = s)) ∧
  (∀ (s : State) (a : MemAccess) (job : Job) (c : Instr),
    (job = .chainDesc ∧ ∃ answer, c = .chainDescReadDone answer) ∨
    (job = .chainReread ∧ ∃ answer, c = .chainRereadDone answer) ∨
    (job = .chainRecord ∧ ∃ answer, c = .chainRecordWordDone answer) ∨
    (job = .chainCompletion ∧ ∃ answer, c = .chainCompletionDone answer) →
    s.port = some ⟨job, a, true⟩ → ∃ t, exec c s = .next t ∧ t.port = none ∧
      (s.chainReq.req ≠ none ∨ s.chain.work = .none → t.chainReq = s.chainReq) ∧
      (∀ k : Fin 3, s.chainReq.req = none → s.chain.work = .descriptor k →
        t.chainReq = ⟨some ⟨.chainDesc,
          ⟨s.chain.descAddr + BitVec.ofNat 32 (4 * k.val), .read⟩⟩, 0⟩) ∧
      (∀ e, s.chainReq.req = none → s.chain.work = .completion e →
        t.chainReq = ⟨some ⟨.chainCompletion, ⟨s.chain.descAddr + 12#32,
          .write (completionWord false e s.chain.count) 0xF#4⟩⟩, 0⟩) ∧
      { t with port := s.port, chainReq := s.chainReq } = s)

/-! ### Commands -/

/-- Every command has one command word, and a word spells a command exactly when it is that command's word: opcode, argument field and every reserved bit (10.3, R157, R172, R174). -/
def Obligations.CommandWordsDecode : Prop :=
  (∀ (w : Word) (lo len : Nat), bitsAt w lo len = (w.extractLsb' lo len).toNat) ∧
  (∀ (w : Word) (n : Nat), bitAt w n = w.getLsbD n) ∧
  (∀ c : Command, c.opcode = c.word.extractLsb' 0 8 ∧ c.argument = c.word.extractLsb' 8 24) ∧
  (∀ c : Command, c.word =
    match c with
    | .loadPlan arg => arg ++ 0x01#8
    | .loadAbort => 0x02#32
    | .start => 0x10#32
    | .stop => 0x11#32
    | .purge => 0x12#32
    | .sweepFirst p => BitVec.ofNat 24 p.val ++ 0x20#8
    | .sweepLast p => BitVec.ofNat 24 p.val ++ 0x21#8
    | .sweepExclude p => BitVec.ofNat 24 p.val ++ 0x22#8
    | .sweepGo => 0x23#32
    | .pocketOpen p => BitVec.ofNat 24 p.val ++ 0x28#8
    | .pocketDisable p => BitVec.ofNat 24 p.val ++ 0x29#8
    | .pocketEnable p => BitVec.ofNat 24 p.val ++ 0x2A#8
    | .stationEnable st => BitVec.ofNat 24 st.val ++ 0x30#8
    | .stationDisable st => BitVec.ofNat 24 st.val ++ 0x31#8
    | .stationRestart st => BitVec.ofNat 24 st.val ++ 0x32#8
    | .chainStart => 0x40#32
    | .chainResume => 0x41#32
    | .chainStop => 0x42#32
    | .chainFlush => 0x43#32
    | .setNoticeMask mask => mask.setWidth 24 ++ 0x50#8
    | .setAttnMode .level => 0x51#32
    | .setAttnMode .first => 0x151#32
    | .statusClear => 0x52#32) ∧
  ∀ (w : Word) (c : Command), decodeCommand w = some c ↔ c.word = w

/-- A refused command: a partial write or a word that spells no command is refused with BAD_COMMAND and the whole word; in EXECUTING every command but LOAD_ABORT is refused with BUSY; in IDLE the owner's own check refuses with BAD_STATE, NO_PLAN or BAD_ARG. Nothing happens but the acknowledgment (R41, R54, R89, R91, R92, R129 to R131, R152, R153, R155, R157, R159). A CMD_ACK notice carries the opcode, the result code, SWEEP_CANCELLED, the load cause and the argument at their places (R159, 10.7). -/
def Obligations.CommandsRefused : Prop :=
  (∀ r : CmdResult, ackNotice r = ⟨.cmdAck, r.opcode, BitVec.ofNat 4 r.result.code, 0#4,
    BitVec.ofNat 16 (32768 * r.sweepCancelled.toNat + (r.loadCause.map LoadCause.code).getD 0),
    r.arg, 0#24⟩) ∧
  [ResultCode.ok, .busy, .badCommand, .badArg, .badState, .seqError, .noPlan, .loadFailed,
    .none].map ResultCode.code = [0, 1, 2, 3, 4, 5, 6, 7, 0xF] ∧
  [LoadCause.crc, .sequence, .header, .pocketRecord, .ruleRecord, .layoutLocked, .memory,
    .aborted].map LoadCause.code = [1, 2, 3, 4, 5, 6, 7, 8] ∧
  (∀ (s : State) (w : Word) (e : Enables), s.resetLow = false →
    e ≠ 0xF#4 ∨ (∀ c : Command, c.word ≠ w) → ∃ t, exec (.badCommand w e) s = .next t ∧
      t.cmd = { s.cmd with
        last := ⟨w.extractLsb' 0 8, .badCommand, false, none, w⟩
        ackCount := s.cmd.ackCount + 1 } ∧
      s.Raised t [ackNotice t.cmd.last] ∧
      { t with cmd := s.cmd, notice := s.notice, noticeReq := s.noticeReq } = s) ∧
  (∀ (s : State) (c : Command), s.resetLow = false → s.cmd.executing = true →
    c ≠ .loadAbort → ∃ t, exec c.instr s = .next t ∧ s.RefusedTo t c .busy) ∧
  (∀ (s : State) (c : Command) (r : ResultCode), s.Ready →
    (c = .loadAbort ∧ r = .badState) ∨
    (c = .start ∧ s.transport.line ≠ .stopped ∧ r = .badState) ∨
    (c = .start ∧ s.transport.line = .stopped ∧ s.plan.state ≠ .valid ∧ r = .noPlan) ∨
    (∃ p : PocketIx, (c = .pocketOpen p ∨ c = .pocketDisable p ∨ c = .pocketEnable p) ∧
      (p = 0 ∨ s.plan.pocketCount ≤ p.val) ∧ r = .badArg) ∨
    (∃ p : PocketIx, p ≠ 0 ∧ p.val < s.plan.pocketCount ∧ r = .badState ∧
      ((c = .pocketOpen p ∧ (s.pocket p).state ≠ .closed) ∨
       (c = .pocketEnable p ∧ (s.pocket p).state ≠ .disabled) ∨
       (c = .pocketDisable p ∧ (s.pocket p).state = .disabled))) ∨
    (∃ st : StationIx,
      (c = .stationEnable st ∨ c = .stationDisable st ∨ c = .stationRestart st) ∧
      s.stationAbsent st = true ∧ r = .badArg) ∨
    (∃ st : StationIx, s.stationAbsent st = false ∧ r = .badState ∧
      ((c = .stationEnable st ∧ (s.station st).framing ≠ .off) ∨
       (c = .stationRestart st ∧ (s.station st).framing = .off))) ∨
    (c = .chainStart ∧ s.chain.state ≠ .off ∧ s.chain.state ≠ .fault ∧ r = .badState) ∨
    (c = .chainResume ∧ ¬(s.chain.state = .held ∧ s.chain.mode = .hold) ∧ r = .badState) ∨
    (c = .chainFlush ∧ (s.chain.state = .off ∨ s.chain.state = .fault) ∧ r = .badState) →
    ∃ t, exec c.instr s = .next t ∧ s.RefusedTo t c r)

/-- SET_NOTICE_MASK, whose new mask governs its own acknowledgment; SET_ATTN_MODE, which arms and in FIRST mode deasserts ATTN; and STATUS_CLEAR, whose acknowledgment carries the lost count before the clear and, lost itself, leaves a count of 1 (R160, R161, R168, R170). -/
def Obligations.NoticeCommandsTaken : Prop :=
  (∀ s : State, s.levelAttn =
    (s.plan.layout.isSome && s.notice.producer != s.notice.consumer)) ∧
  ∀ s : State, s.Ready →
    (∀ (mask : BitVec 8) (u : State),
      u = { s with notice := { s.notice with mask := mask } } →
      ∃ t, exec (.setNoticeMask mask) s = .next t ∧
        s.TakenTo t (.setNoticeMask mask) (mask.setWidth 32) ∧
        u.Raised t [ackNotice t.cmd.last] ∧
        { t with
          sweep := s.sweep, cmd := s.cmd, notice := s.notice, noticeReq := s.noticeReq } = s) ∧
    (∀ (mode : AttnMode) (u : State),
      u = { s with notice := { s.notice with
        mode := mode, armed := true
        attn := mode == .level && s.plan.layout.isSome &&
          s.notice.producer != s.notice.consumer } } →
      ∃ t, exec (.setAttnMode mode) s = .next t ∧
        s.TakenTo t (.setAttnMode mode) (if mode = .level then 0#32 else 1#32) ∧
        u.Raised t [ackNotice t.cmd.last] ∧
        { t with
          sweep := s.sweep, cmd := s.cmd, notice := s.notice, noticeReq := s.noticeReq } = s) ∧
    (∀ u : State,
      u = { s with
        notice := { s.notice with
          lostCount := 0, lost := false, memory := false, guard := false, badIndex := false } } →
      ∃ t, exec .statusClear s = .next t ∧
        s.TakenTo t .statusClear (BitVec.ofNat 32 s.notice.lostCount) ∧
        (∀ st, t.station st = { s.station st with rejects := 0 }) ∧
        (s.notice.fifo.length < 32 ∨ s.notice.mask.getLsbD 0 = false →
          t.notice.lostCount = 0 ∧ t.notice.lost = false) ∧
        (32 ≤ s.notice.fifo.length → s.notice.mask.getLsbD 0 = true →
          t.notice.lostCount = 1 ∧ t.notice.lost = true) ∧
        u.Raised t [ackNotice t.cmd.last] ∧
        { t with
          stations := s.stations, sweep := s.sweep, cmd := s.cmd, notice := s.notice
          noticeReq := s.noticeReq } = s)

/-- The snoops of the three other control words: a valid consumer write takes the index, evaluates ATTN, begins the head entry where the ring then has room, and stops the writing of notices where it makes the ring full, and any other sets BAD_INDEX (R164, R167, R168); that an entry being written when the ring is made full is abandoned, and stays at the head of the FIFO, is the model's choice (log 22); a full write of a chain pointer replaces its copy, a partial one is ignored, and a last pointer that does not name the descriptor a LAST_ADDRESS engine is HELD on releases it (R144, R155). -/
def Obligations.SnoopedWordsTaken : Prop :=
  (∀ s : State, s.plan.ringSize = (s.plan.layout.map Layout.noticeSize).getD 0) ∧
  ∀ (s : State) (data : Word) (e : Enables), s.resetLow = false →
    (e = 0xF#4 → data.toNat < s.plan.ringSize →
      ∃ t, exec (.noticeConsumerIndex data e) s = .next t ∧
        (∀ n : NoticeUnit, n = { s.notice with
            consumer := data.toNat
            attn := if s.notice.mode = .level then s.notice.producer != data.toNat else false
            armed := if s.notice.mode = .level then s.notice.armed else true } →
          (∀ l h rest, s.plan.layout = some l → s.notice.ringFault = false →
            (s.notice.producer + 1) % s.plan.ringSize ≠ data.toNat →
            s.notice.fifo = h :: rest → s.notice.writing = none →
            t.notice = { n with writing := some 0 } ∧
            t.noticeReq = ⟨some ⟨.noticeWord, ⟨BitVec.ofNat 32
              (l.noticeBase + 16 * s.notice.producer), .write (h.word 0) 0xF#4⟩⟩, 0⟩ ∧
            t.port = s.port) ∧
          (s.notice.writing ≠ none → (s.notice.producer + 1) % s.plan.ringSize = data.toNat →
            t.notice = { n with writing := none } ∧ t.noticeReq = ⟨none, 0⟩ ∧
            t.port = s.port.map fun g =>
              if g.job = .noticeWord then { g with abandoned := true } else g) ∧
          (s.notice.writing = none ∨
              (s.notice.producer + 1) % s.plan.ringSize ≠ data.toNat →
            s.notice.ringFault = true ∨
              (s.notice.producer + 1) % s.plan.ringSize = data.toNat ∨ s.notice.fifo = [] ∨
              s.notice.writing ≠ none →
            t.notice = n ∧ t.noticeReq = s.noticeReq ∧ t.port = s.port)) ∧
        { t with port := s.port, notice := s.notice, noticeReq := s.noticeReq } = s) ∧
    (e ≠ 0xF#4 ∨ s.plan.ringSize ≤ data.toNat →
      exec (.noticeConsumerIndex data e) s =
        .next { s with notice := { s.notice with badIndex := true } }) ∧
    exec (.chainBasePointer data e) s =
      .next (if e = 0xF#4 then { s with chain := { s.chain with base := data } } else s) ∧
    (e ≠ 0xF#4 → exec (.chainLastPointer data e) s = .next s) ∧
    (e = 0xF#4 →
      ¬(s.chain.state = .held ∧ s.chain.mode = .lastAddress ∧ data ≠ s.chain.descAddr) →
      exec (.chainLastPointer data e) s =
        .next { s with chain := { s.chain with last := data, lastWritten := true } }) ∧
    (e = 0xF#4 → s.chain.state = .held → s.chain.mode = .lastAddress →
      data ≠ s.chain.descAddr →
      exec (.chainLastPointer data e) s = .next { s with
        chain := { s.chain with
          last := data, lastWritten := true, state := .fetch, work := .rereadNext false }
        chainReq := s.chainPresents .chainReread ⟨s.chain.descAddr + 4#32, .read⟩ })

/-- NOTICE_WORD_WRITE_DONE: the words of the head entry go out one by one; with the fourth the entry has left the FIFO, the producer index advances, ATTN is evaluated and the next entry begins where the conditions hold; an ERROR faults the ring, keeps the entry and raises a RING_FAULT; the answer to an abandoned word is discarded, by a part that a reset has emptied too; each answer frees the memory port (R20 to R22, R163, R165 to R168). A valid consumer write and the acceptance of an entry may come in either order, with the outcomes of R169; a consumer write that makes the ring full comes before no acceptance, since it stops the writing (R164), where that the entry in progress is abandoned is the model's choice (log 22). The four words of an entry hold its fields at the bits of 10.7, with the code and class of its kind, and every reserved bit zero; a kind is masked by the bit of its class (R161, R172, R173). -/
def Obligations.NoticeWordsWritten : Prop :=
  (∀ v lo : Nat, field v lo = BitVec.ofNat 32 v <<< lo) ∧
  (∀ (b : Bool) (n : Nat), flag b n = field b.toNat n) ∧

  (∀ n : Notice,
    n.word 0 = field n.kind.code 0 ||| field n.kind.class.code 8 ||| field n.source.toNat 16 |||
      field n.result.toNat 24 ||| field n.cause.toNat 28 ∧
    n.word 1 = n.arg16.setWidth 32 ∧ n.word 2 = n.arg32 ∧ n.word 3 = n.position.setWidth 32) ∧
  [NoticeKind.cmdAck, .ringFault, .lineState, .feedHold, .pocketNearFull, .pocketFull,
    .pocketClosed, .sweepSkip, .stationState, .stationDegraded, .recordReject, .untrackedEntry,
    .inductionFraming, .untrackedDispatch, .letterLost, .writeBlocked, .chainState,
    .chainDescDone].map (fun k => (k.code, k.class.code)) =
    [(0x01, 0), (0x02, 1), (0x03, 2), (0x04, 2), (0x05, 3), (0x06, 3), (0x07, 3), (0x08, 3),
      (0x09, 4), (0x0A, 4), (0x0B, 4), (0x0C, 5), (0x0D, 5), (0x0E, 5), (0x0F, 5), (0x10, 6),
      (0x11, 7), (0x12, 7)] ∧
  (∀ (mask : BitVec 8) (k : NoticeKind), noticeUnmasked mask k = mask.getLsbD k.class.code) ∧
  (∀ (s : State) (a : MemAccess) (answer : WriteAnswer), s.port = some ⟨.noticeWord, a, true⟩ →
    exec (.noticeWordWriteDone answer) s = .next { s with port := none }) ∧
  ∀ (s : State) (a : MemAccess) (l : Layout) (h : Notice) (rest : List Notice),
    s.plan.layout = some l → s.notice.fifo = h :: rest →
    (∀ k : Fin 4, k ≠ 3 → s.notice.writing = some k → s.port = some ⟨.noticeWord, a, false⟩ →
      exec (.noticeWordWriteDone .ok) s = .next { s with
        port := none
        notice := { s.notice with writing := some (k + 1) }
        noticeReq := ⟨some ⟨.noticeWord, ⟨BitVec.ofNat 32
          (l.noticeBase + 16 * s.notice.producer + 4 * (k + 1).val),
          .write (h.word (k + 1)) 0xF#4⟩⟩, 0⟩ }) ∧
    (∀ p : Nat, s.notice.writing = some 3 → s.port = some ⟨.noticeWord, a, false⟩ →
      p = (s.notice.producer + 1) % l.noticeSize →
      ∃ t, exec (.noticeWordWriteDone .ok) s = .next t ∧ t.port = none ∧
        (∀ n : NoticeUnit, n = { s.notice with
            fifo := rest, producer := p, writing := none
            attn := if s.notice.mode = .level then p != s.notice.consumer
              else s.notice.armed || s.notice.attn
            armed := if s.notice.mode = .level then s.notice.armed else false } →
          (∀ h' rest', rest = h' :: rest' → s.notice.ringFault = false →
            (p + 1) % l.noticeSize ≠ s.notice.consumer →
            t.notice = { n with writing := some 0 } ∧
            t.noticeReq = ⟨some ⟨.noticeWord, ⟨BitVec.ofNat 32 (l.noticeBase + 16 * p),
              .write (h'.word 0) 0xF#4⟩⟩, 0⟩) ∧
          (rest = [] ∨ s.notice.ringFault = true ∨
            (p + 1) % l.noticeSize = s.notice.consumer →
            t.notice = n ∧ t.noticeReq = s.noticeReq)) ∧
        { t with port := s.port, notice := s.notice, noticeReq := s.noticeReq } = s) ∧
    (s.port = some ⟨.noticeWord, a, false⟩ →
      ∃ t, exec (.noticeWordWriteDone .error) s = .next t ∧
        (∀ u : State, u = { s with notice := { s.notice with
            ringFault := true, memory := true, writing := none } } →
          u.Raised t [⟨.ringFault, 0#8, 0#4, 1#4,
            BitVec.ofNat 16 s.notice.producer, a.addr, 0#24⟩]) ∧
        t.port = none ∧ { t with port := s.port, notice := s.notice } = s) ∧
    (∀ (d : Word) (p : Nat), s.resetLow = false → s.notice.writing = some 3 →
      s.port = some ⟨.noticeWord, a, false⟩ → d.toNat < l.noticeSize →
      p = (s.notice.producer + 1) % l.noticeSize →
      (∃ t, execInTurn [.noticeWordWriteDone .ok, .noticeConsumerIndex d 0xF#4] s = .next t ∧
        t.notice.producer = p ∧ t.notice.consumer = d.toNat ∧
        t.notice.attn = (s.notice.mode == .level && p != d.toNat) ∧
        t.notice.armed = (s.notice.mode == .first || s.notice.armed)) ∧
      (d.toNat ≠ p →
        ∃ t, execInTurn [.noticeConsumerIndex d 0xF#4, .noticeWordWriteDone .ok] s = .next t ∧
          t.notice.producer = p ∧ t.notice.consumer = d.toNat ∧ t.notice.attn = true ∧
          t.notice.armed = (s.notice.mode == .level && s.notice.armed)) ∧
      (d.toNat = p →
        ∃ t, execInTurn [.noticeConsumerIndex d 0xF#4, .noticeWordWriteDone .ok] s = .next t ∧
          t.notice.fifo = s.notice.fifo ∧ t.notice.producer = s.notice.producer ∧
          t.notice.consumer = d.toNat ∧ t.notice.writing = none ∧
          t.noticeReq = ⟨none, 0⟩ ∧ t.port = none))

/-! ### The memory path -/

/-- A write at the backplane port: one that R9 refuses is answered ERROR, sets GUARD and raises WRITE_BLOCKED with the first condition's cause; any other is forwarded with the region that holds it and answered by none of this (R1, R2, R4, R9, R10). The control area, the windows of a layout with their extents and owners, and the region that holds a word are those of R2 to R6. -/
def Obligations.WritesGuarded : Prop :=
  (∀ cb : BitVec 4, controlBase cb = cb.toNat * 2 ^ 28) ∧
  (∀ (s : State) (w : Word), s.inControlArea w = true ↔
    controlBase s.cb ≤ w.toNat ∧ w.toNat < controlBase s.cb + 4096) ∧
  (∀ (x : Window) (addr : Nat),
    x.contains addr = true ↔ x.base ≤ addr ∧ addr < x.base + x.length) ∧
  (∀ s : State, s.layoutWindows =
    match s.plan.layout with
    | none => []
    | some l => ⟨.inductionRing, l.inductionBase, 8 * l.inductionCount,
          some (BitVec.ofNat 3 l.inductionMaster)⟩ ::
        ((List.finRange 4).filter l.stationPresent).map (fun st =>
          ⟨.stationRing st, l.stationBase st, 32 * l.stationCount st,
            some (BitVec.ofNat 3 (l.stationMaster st))⟩) ++
        [⟨.gateWindow, l.gateBase, 1024, none⟩, ⟨.noticeRing, l.noticeBase, 16 * l.noticeSize, none⟩]) ∧
  (∀ (s : State) (w : Word), s.imageCovers w = true ↔ s.inControlArea w = false ∧
    ∃ x, s.imageWindow = some x ∧ x.contains w.toNat = true) ∧
  (∀ (s : State) (w : Word),
    (∀ off, s.inControlArea w = true → w.toNat = controlBase s.cb + off → s.regionOf w =
      if off = 0 then .commandWord
      else if off = 4 then .consumerIndex
      else if off = 8 then .basePointer
      else if off = 12 then .lastPointer
      else if 0x100 ≤ off ∧ off < 0x180 then .statusBlock ((off - 0x100) / 4)
      else if 0x200 ≤ off ∧ off < 0x300 then .pocketStatus (Fin.ofNat 64 ((off - 0x200) / 4))
      else if 0x300 ≤ off ∧ off < 0x400 then .pocketBatch (Fin.ofNat 64 ((off - 0x300) / 4))
      else .ordinary) ∧
    (s.inControlArea w = false →
      ((∀ x ∈ s.layoutWindows, x.contains w.toNat = false) → s.regionOf w = .ordinary) ∧
      (∀ x ∈ s.layoutWindows, x.contains w.toNat = true →
        (∀ y ∈ s.layoutWindows, y.contains w.toNat = true → y = x) →
        s.regionOf w = .window x ((w.toNat - x.base) / 4)))) ∧
  [BlockCause.controlWord, .statusOverlay, .pocketOverlay, .inductionRing, .gateWindow,
    .noticeRing, .planImage].map (fun c => (c.code, c.stationBits)) =
    [(1#4, 0), (2#4, 0), (3#4, 0), (4#4, 0), (6#4, 0), (7#4, 0), (8#4, 0)] ∧
  (∀ st, (BlockCause.stationRing st).code = 5#4 ∧
    (BlockCause.stationRing st).stationBits = st.val) ∧
  ∀ (s : State) (a : Access) (data : Word) (e : Enables) (w : Word), s.resetLow = false →
    s.backplane.busy = none → a.op = .write data e → w = a.addr &&& 0xFFFFFFFC#32 →
    (∀ cause, s.writeRefusal w a.master = some cause →
      ∃ t, exec (.backplaneAccess a) s = .next t ∧
        t.backplane = ⟨none, some ⟨a.master, none⟩⟩ ∧
        (∀ u : State, u = { s with notice := { s.notice with guard := true } } →
          u.Raised t [⟨.writeBlocked, a.master.setWidth 8, 0#4, cause.code,
            BitVec.ofNat 16 (e.toNat + 256 * cause.stationBits), w, 0#24⟩]) ∧
        { t with
          backplane := s.backplane, notice := s.notice, noticeReq := s.noticeReq } = s) ∧
    (s.writeRefusal w a.master = none → exec (.backplaneAccess a) s = .next { s with
      backplane := ⟨some ⟨{ a with addr := w }, s.regionOf w, false⟩, none⟩ }) ∧
    (∀ off, s.inControlArea w = true → w.toNat = controlBase s.cb + off →
      s.writeRefusal w a.master =
        if off < 0x10 then (if a.master = s.master then none else some .controlWord)
        else if 0x100 ≤ off ∧ off < 0x180 then some .statusOverlay
        else if 0x200 ≤ off ∧ off < 0x400 then some .pocketOverlay
        else none) ∧
    (s.imageCovers w = true → s.writeRefusal w a.master = some .planImage) ∧
    (s.inControlArea w = false → s.imageCovers w = false →
      ((∀ x ∈ s.layoutWindows, x.contains w.toNat = false) →
        s.writeRefusal w a.master = none) ∧
      (∀ x ∈ s.layoutWindows, x.contains w.toNat = true →
        (∀ y ∈ s.layoutWindows, y.contains w.toNat = true → y = x) →
        s.writeRefusal w a.master =
          match x.kind with
          | .inductionRing => if x.owner = some a.master then none else some .inductionRing
          | .stationRing st =>
            if x.owner = some a.master then none else some (.stationRing st)
          | .gateWindow => some .gateWindow
          | .noticeRing => some .noticeRing
          | .planImage => some .planImage))

/-- A read at the backplane port: a word of the status block or of a pocket window is answered from the part's state and changes nothing; a read of the gate window by the gate master is the dispatch of its slot, and by any other master a peek, which changes nothing; every other read is forwarded (R2, R5, R12, R13, R110, R116). The words answered hold their fields at the bits of 10.3 and 10.4 with the codes of 10.1: the status words, of which 17 to 31 are zero, the pocket words and the gate word, every reserved bit zero (R56, R140, R171 to R173). -/
def Obligations.ReadsOverlaid : Prop :=
  (∀ v lo : Nat, field v lo = BitVec.ofNat 32 v <<< lo) ∧
  (∀ (b : Bool) (n : Nat), flag b n = field b.toNat n) ∧

  (∀ s : State,
    statusWord s 0 = 0x04640001#32 ∧
    statusWord s 1 = field s.transport.line.code 0 ||| flag s.transport.feedHold 4 |||
      flag s.notice.attn 5 ||| flag (s.notice.mode == .first) 6 |||
      flag (s.transport.line != .running) 8 ||| flag s.transport.occupancy 9 |||
      flag (s.plan.layout.isSome &&
        (s.pocket 0).capacity.any fun c => decide (c ≤ (s.pocket 0).fill)) 10 |||
      field s.master.toNat 16 ∧
    statusWord s 2 = field s.plan.state.code 0 ||| flag s.cmd.executing 4 |||
      field (if s.plan.layout = none then 0 else if s.notice.ringFault then 2 else 1) 8 |||
      field s.chain.state.code 16 |||
      field (if s.chain.state = .fault then s.chain.fault.code else 0) 20 ∧
    statusWord s 3 = s.plan.planId ∧
    statusWord s 4 = field s.cmd.last.opcode.toNat 0 ||| field s.cmd.last.result.code 8 |||
      flag s.cmd.last.sweepCancelled 15 |||
      field ((s.cmd.last.loadCause.map LoadCause.code).getD 0) 16 ∧
    statusWord s 5 = s.cmd.last.arg ∧
    statusWord s 6 = field s.cmd.ackCount.toNat 0 ∧
    statusWord s 7 = s.chain.descAddr ∧
    statusWord s 8 = field s.transit.letters.length 0 ||| field s.retire.length 8 ∧
    statusWord s 9 = field s.transport.position.toNat 0 ∧
    statusWord s 10 = field s.notice.producer 0 ||| field s.notice.consumer 16 ∧
    statusWord s 11 = field s.notice.fifo.length 0 ||| field s.notice.mask.toNat 8 ∧
    statusWord s 12 = field s.notice.lostCount 0 ||| flag s.notice.lost 16 |||
      flag s.notice.memory 17 ||| flag s.notice.guard 18 ||| flag s.notice.badIndex 19 ∧
    (∀ st : StationIx, statusWord s (13 + st.val) = field (s.station st).framing.code 0 |||
      field (s.station st).expectation.code 4 ||| field (s.station st).misses 8 |||
      field (s.station st).rejects 16) ∧
    (∀ k, 17 ≤ k → statusWord s k = 0#32)) ∧
  (∀ x : Pocket,
    pocketStatusWord x = field x.state.code 0 ||| flag (x.state == .draining .disabled) 2 |||
      field x.inFlight 8 ||| field x.fill 16 ∧
    pocketBatchWord x = field x.batch.toNat 0 ||| field (x.capacity.getD 0) 16) ∧
  (∀ g : GateWord, g.word = field g.slot.toNat 0 ||| field g.pocket 8 ||| field g.cause.code 16 |||
    flag g.viaPartner 24 ||| flag g.untracked 25 ||| flag g.pending 26 ||| flag g.await 27 |||
    flag g.empty 28 ||| flag g.valid 31) ∧
  [LineState.stopped, .running, .stalled].map LineState.code = [0, 1, 2] ∧
  [PlanState.invalid, .loading, .valid].map PlanState.code = [0, 1, 2] ∧
  [Framing.off, .hunt, .locked].map Framing.code = [0, 1, 2] ∧
  [Expectation.expected, .degraded].map Expectation.code = [0, 1] ∧
  [ChainState.off, .fetch, .filling, .held, .fault].map ChainState.code = [0, 1, 2, 3, 4] ∧
  [ChainFault.none, .align, .empty, .memory].map ChainFault.code = [0, 4, 5, 6] ∧
  [PocketState.disabled, .opened, .draining .closed, .draining .disabled, .closed].map
    PocketState.code = [0, 1, 2, 2, 3] ∧
  ∀ (s : State) (a : Access) (w : Word), s.resetLow = false → s.backplane.busy = none →
    a.op = .read → w = a.addr &&& 0xFFFFFFFC#32 →
    (∀ k : Fin 32, w.toNat = controlBase s.cb + 0x100 + 4 * k.val →
      exec (.backplaneAccess a) s = .next { s with
        backplane := ⟨none, some ⟨a.master, some (some (statusWord s k.val))⟩⟩ }) ∧
    (∀ p : PocketIx, w.toNat = controlBase s.cb + 0x200 + 4 * p.val →
      exec (.backplaneAccess a) s = .next { s with
        backplane := ⟨none, some ⟨a.master, some (some (pocketStatusWord (s.pocket p)))⟩⟩ }) ∧
    (∀ p : PocketIx, w.toNat = controlBase s.cb + 0x300 + 4 * p.val →
      exec (.backplaneAccess a) s = .next { s with
        backplane := ⟨none, some ⟨a.master, some (some (pocketBatchWord (s.pocket p)))⟩⟩ }) ∧
    (∀ x offset, s.regionOf w = .window x offset → x.kind = .gateWindow →
      (s.gateMaster = some a.master →
        exec (.backplaneAccess a) s = exec (.gateDispatch (BitVec.ofNat 8 offset)) s) ∧
      (s.gateMaster ≠ some a.master →
        exec (.backplaneAccess a) s = .next { s with backplane := ⟨none, some ⟨a.master,
          some (some (GateWord.word
            (match (s.letterBySlot (BitVec.ofNat 8 offset)).map Letter.state with
            | some (.decided d) => ⟨true, d.final.val, d.cause, d.viaPartner, false, false, false,
                false, BitVec.ofNat 8 offset⟩
            | some .collecting =>
              ⟨false, 0, .none, false, false, true, false, false, BitVec.ofNat 8 offset⟩
            | some .awaitPlan =>
              ⟨false, 0, .none, false, false, true, true, false, BitVec.ofNat 8 offset⟩
            | none =>
              ⟨false, 0, .none, false, false, false, false, true, BitVec.ofNat 8 offset⟩)))⟩⟩ })) ∧
    (s.regionOf w = .ordinary ∨ s.regionOf w = .commandWord ∨ s.regionOf w = .consumerIndex ∨
        s.regionOf w = .basePointer ∨ s.regionOf w = .lastPointer ∨
        (∃ x offset, s.regionOf w = .window x offset ∧ x.kind ≠ .gateWindow) →
      exec (.backplaneAccess a) s = .next { s with
        backplane := ⟨some ⟨{ a with addr := w }, s.regionOf w, false⟩, none⟩ })

/-- ARBITER_GRANT of a free port: first an own requester whose wait count is 4, in the order notice unit, chain engine, plan loader; otherwise passthrough, while every own requester that is pending counts one wait; otherwise the first own requester. A granted requester's count returns to 0. A port that is held grants nothing (R20, R21). -/
def Obligations.ArbiterGrants : Prop :=
  ∀ s : State, s.resetLow = false →
    (s.port.isSome = true → exec .arbiterGrant s = .next s) ∧
    (∀ due : OwnReq → Prop, (∀ q, due q ↔ q.req.isSome = true ∧ q.wait = 4) →
      s.port = none → s.noticeReq.wait ≤ 4 → s.chainReq.wait ≤ 4 → s.planReq.wait ≤ 4 →
      (∀ o, s.noticeReq.req = some o →
        due s.noticeReq ∨ (¬due s.chainReq ∧ ¬due s.planReq ∧
          ∀ f, s.backplane.busy = some f → f.granted = true) →
        exec .arbiterGrant s = .next { s with
          port := some ⟨o.job, o.access, false⟩, noticeReq := ⟨none, 0⟩ }) ∧
      (∀ o, s.chainReq.req = some o → ¬due s.noticeReq →
        due s.chainReq ∨ (s.noticeReq.req = none ∧ ¬due s.planReq ∧
          ∀ f, s.backplane.busy = some f → f.granted = true) →
        exec .arbiterGrant s = .next { s with
          port := some ⟨o.job, o.access, false⟩, chainReq := ⟨none, 0⟩ }) ∧
      (∀ o, s.planReq.req = some o → ¬due s.noticeReq → ¬due s.chainReq →
        due s.planReq ∨ (s.noticeReq.req = none ∧ s.chainReq.req = none ∧
          ∀ f, s.backplane.busy = some f → f.granted = true) →
        exec .arbiterGrant s = .next { s with
          port := some ⟨o.job, o.access, false⟩, planReq := ⟨none, 0⟩ }) ∧
      (∀ f, s.backplane.busy = some f → f.granted = false → ¬due s.noticeReq →
        ¬due s.chainReq → ¬due s.planReq →
        exec .arbiterGrant s = .next { s with
          port := some ⟨.passthrough f.access.master, ⟨f.access.addr, f.access.op⟩, false⟩
          backplane := { s.backplane with busy := some { f with granted := true } }
          noticeReq := ⟨s.noticeReq.req, s.noticeReq.wait + s.noticeReq.req.isSome.toNat⟩
          chainReq := ⟨s.chainReq.req, s.chainReq.wait + s.chainReq.req.isSome.toNat⟩
          planReq := ⟨s.planReq.req, s.planReq.wait + s.planReq.req.isSome.toNat⟩ }) ∧
      (s.noticeReq.req = none → s.chainReq.req = none → s.planReq.req = none →
        (∀ f, s.backplane.busy = some f → f.granted = true) →
        exec .arbiterGrant s = .next s))

/-- PASSTHROUGH_DONE: memory's answer goes back to the master. An ERROR changes nothing else in the part (R16); a read's word goes back without a snoop; an accepted write is snooped by the owner of its region, as that owner's own command, and a ring's only if its window is still in the table (R14, R15, R17). An access made before a reset is answered without a snoop (R22); that this answer may come after the release, with a newer access in the backplane port, is the model's reading (log 8). -/
def Obligations.PassthroughAnswered : Prop :=
  ∀ (s : State) (f : Forwarded) (port : Bool → Granted),
    (∀ abandoned, port abandoned =
      ⟨.passthrough f.access.master, ⟨f.access.addr, f.access.op⟩, abandoned⟩) →
    (s.port = some (port false) → s.backplane.busy = some f →
      exec (.passthroughDone .error) s = .next { s with
        port := none, backplane := ⟨none, some ⟨f.access.master, none⟩⟩ } ∧
      (∀ word, f.access.op = .read → exec (.passthroughDone (.ok word)) s = .next { s with
        port := none, backplane := ⟨none, some ⟨f.access.master, some (some word)⟩⟩ }) ∧
      (∀ word data e u, f.access.op = .write data e → s.resetLow = false →
        u = { s with port := none, backplane := ⟨none, some ⟨f.access.master, some none⟩⟩ } →
        (∀ c : Command, f.region = .commandWord → e = 0xF#4 → c.word = data →
          exec (.passthroughDone (.ok word)) s = exec c.instr u) ∧
        (f.region = .commandWord → (e ≠ 0xF#4 ∨ ∀ c : Command, c.word ≠ data) →
          exec (.passthroughDone (.ok word)) s = exec (.badCommand data e) u) ∧
        (f.region = .consumerIndex →
          exec (.passthroughDone (.ok word)) s = exec (.noticeConsumerIndex data e) u) ∧
        (f.region = .basePointer →
          exec (.passthroughDone (.ok word)) s = exec (.chainBasePointer data e) u) ∧
        (f.region = .lastPointer →
          exec (.passthroughDone (.ok word)) s = exec (.chainLastPointer data e) u) ∧
        (∀ x offset, f.region = .window x offset → x ∈ s.layoutWindows →
          4 * offset < x.length →
          (x.kind = .inductionRing →
            exec (.passthroughDone (.ok word)) s = exec (.inductionRingWrite offset data e) u) ∧
          (∀ st, x.kind = .stationRing st →
            exec (.passthroughDone (.ok word)) s =
              exec (.stationRingWrite st offset data e) u)) ∧
        (f.region = .ordinary ∨
            (∃ x offset, f.region = .window x offset ∧ x ∉ s.layoutWindows) →
          exec (.passthroughDone (.ok word)) s = .next u))) ∧
    (∀ answer, s.port = some (port true) →
      exec (.passthroughDone answer) s = .next { s with
        port := none
        backplane := { s.backplane with
          response := some ⟨f.access.master,
            match answer, f.access.op with
            | .ok word, .read => some (some word)
            | .ok _, .write _ _ => some none
            | .error, _ => none⟩ } })

/-! ### Loads -/

/-- LOAD_PLAN is accepted in IDLE and the loader reads the image word by word: EXECUTING and LOADING, the rule table unusable, the plan-image window installed with 64 bytes, an unfinished sweep cancelled, a load that holds nothing of an image yet, the first read presented; each word that arrives before the sixteenth has the next one read; a block 0 or block 1 that passes grows the window and has the next block read; the answer to an abandoned read is discarded (R8, R24, R34, R35, R41). That the unusable rule table is held as empty is the model's representation (log 21); the conditions on block 0 are those of LoadFails, where a reserved bit of a station field is the model's reading (log 10). The fields of the blocks are read at the bytes of 10.5, and the image has 2 + ceil(P/7) + ceil(N/5) blocks (R24, R28, R172). -/
def Obligations.PlanWordsRead : Prop :=
  (∀ (bs : List Byte) (l : Layout), l = ⟨bs⟩ →
    l.pocketCount = byteAt bs 5 ∧ l.inductionMaster = byteAt bs 6 ∧ l.gateMaster = byteAt bs 7 ∧
    l.inductionBase = le32At bs 8 ∧ l.inductionCount = le16At bs 12 ∧
    l.stallTimeout = byteAt bs 14 ∧ l.gateBase = le32At bs 16 ∧ l.noticeBase = le32At bs 44 ∧
    l.noticeSize = le16At bs 48 ∧ l.decideDistance = le16At bs 50 ∧
    l.lostDistance = le16At bs 52 ∧ l.minGap = le16At bs 54 ∧
    ∀ st : StationIx, l.stationBase st = le32At bs (20 + 6 * st.val) ∧
      l.stationCount st = stationFieldAt bs st % 512 ∧
      l.stationMaster st = stationFieldAt bs st / 512 % 8 ∧
      (l.stationPresent st = true ↔ 32768 ≤ stationFieldAt bs st)) ∧
  (∀ bs : List Byte, paramsOf bs = ⟨BitVec.ofNat 32 (le32At bs 0), le16At bs 4,
    Fin.ofNat 64 (byteAt bs 6), Fin.ofNat 64 (byteAt bs 7), byteAt bs 8, byteAt bs 9,
    BitVec.ofNat 8 (byteAt bs 10), if byteAt bs 11 = 0 then .level else .first⟩) ∧
  (∀ (bs : List Byte) (j P : Nat), pocketBlockRecords bs j P =
    ((List.range 7).filter fun i => decide (7 * j + i < P)).map fun i =>
      ⟨le16At bs (8 * i), le16At bs (8 * i + 2),
        if byteAt bs (8 * i + 4) = 0 then none else some (Fin.ofNat 64 (byteAt bs (8 * i + 4))),
        decide (byteAt bs (8 * i + 5) = 0)⟩) ∧
  (∀ (bs : List Byte) (j P N : Nat), ruleBlockFailure bs j P N = none → ruleBlockRules bs j P N =
    ((List.range 5).filter fun i => decide (5 * j + i < N)).map fun i =>
      ⟨match byteAt bs (12 * i) % 8 with
        | 0 => .any
        | 1 => .district
        | 2 => .cycle
        | 3 => .account
        | _ => .mailBatch,
        match byteAt bs (12 * i) / 16 % 4 with
        | 0 => .any
        | 1 => .present
        | _ => .absent,
        Fin.ofNat 64 (byteAt bs (12 * i + 1)), BitVec.ofNat 16 (le16At bs (12 * i + 2)),
        le32At bs (12 * i + 4), le32At bs (12 * i + 8)⟩) ∧
  (∀ P N : Nat, P ≤ 7 * pocketBlocks P ∧ 7 * pocketBlocks P < P + 7 ∧ N ≤ 5 * ruleBlocks N ∧
    5 * ruleBlocks N < N + 5 ∧ imageBlocks P N = 2 + pocketBlocks P + ruleBlocks N) ∧
  (∀ ld : Load, ld.coveredBlocks =
    match ld.layout, ld.params with
    | none, _ => 1
    | some l, none => 2 + pocketBlocks l.pocketCount
    | some l, some p => imageBlocks l.pocketCount p.ruleCount) ∧
  (∀ s : State, s.imageWindow = s.plan.load.map fun ld =>
    ⟨.planImage, ld.image.toNat, 64 * ld.coveredBlocks, none⟩) ∧
  (∀ s : State, s.layoutLocked = true ↔ s.transport.line ≠ .stopped ∨ s.transit.letters ≠ []) ∧
  (∀ (s : State) (arg : BitVec 24), s.Ready →
    ∃ t ld, exec (.loadPlan arg) s = .next t ∧
      ld.image.toNat = 64 * arg.toNat ∧ ld.block = 0 ∧ ld.words = [] ∧ ld.layout = none ∧
      ld.changed = false ∧ ld.params = none ∧ ld.records = [] ∧ ld.rules = [] ∧
      ld.sweepCancelled = s.sweepOpen ∧
      t.plan = { s.plan with state := .loading, load := some ld, rules := [] } ∧
      t.imageWindow = some ⟨.planImage, 64 * arg.toNat, 64, none⟩ ∧
      t.cmd = { s.cmd with executing := true } ∧ t.sweep = .idle ∧
      t.planReq = ⟨some ⟨.planRead, ⟨ld.image, .read⟩⟩, 0⟩ ∧
      { t with plan := s.plan, cmd := s.cmd, sweep := s.sweep, planReq := s.planReq } = s) ∧
  (∀ (s : State) (a : MemAccess) (ld : Load) (data : Word), s.plan.load = some ld →
    s.port = some ⟨.planRead, a, false⟩ →
    (∀ u : Load, u = { ld with words := ld.words ++ [data] } → u.words.length < 16 →
      exec (.planReadDone (.ok data)) s = .next { s with
        port := none
        plan := { s.plan with load := some u }
        planReq := ⟨some ⟨.planRead, ⟨ld.image +
          BitVec.ofNat 32 (64 * ld.block + 4 * u.words.length), .read⟩⟩, 0⟩ }) ∧
    (∀ (bs : List Byte) (u : Load), bs = wordsBytes (ld.words ++ [data]) →
      ld.words.length = 15 → blockCrcGood bs = true → le16At bs 60 = ld.block →
      (∃ l changed, ld.layout = none ∧ l = Layout.mk (bs.take 60) ∧
        firstFailure (l.checks s.cb s.master) = none ∧
        changed = (s.plan.layout != some l) ∧ (changed = true → s.layoutLocked = false) ∧
        (ld.params = none ∨ ld.block + 1 ≠ u.coveredBlocks) ∧
        u = { ld with block := ld.block + 1, words := [], layout := some l, changed := changed }) ∨
      (∃ l, ld.layout = some l ∧ ld.params = none ∧ ld.block + 1 ≠ u.coveredBlocks ∧
        firstFailure (paramChecks bs l.pocketCount) = none ∧
        u = { ld with block := ld.block + 1, words := [], params := some (paramsOf bs) }) ∨
      (∃ l p, ld.layout = some l ∧ ld.params = some p ∧ ld.block + 1 ≠ ld.coveredBlocks ∧
        ((ld.block < 2 + pocketBlocks l.pocketCount ∧
          pocketBlockFailure bs (ld.block - 2) l.pocketCount = none ∧
          u = { ld with
            block := ld.block + 1, words := []
            records := ld.records ++ pocketBlockRecords bs (ld.block - 2) l.pocketCount }) ∨
         (2 + pocketBlocks l.pocketCount ≤ ld.block ∧
          ruleBlockFailure bs (ld.block - 2 - pocketBlocks l.pocketCount) l.pocketCount
            p.ruleCount = none ∧
          u = { ld with
            block := ld.block + 1, words := []
            rules := ld.rules ++ ruleBlockRules bs
              (ld.block - 2 - pocketBlocks l.pocketCount) l.pocketCount p.ruleCount }))) →
      ∃ t, exec (.planReadDone (.ok data)) s = .next t ∧
        t = { s with
          port := none
          plan := { s.plan with load := some u }
          planReq := ⟨some ⟨.planRead,
            ⟨ld.image + BitVec.ofNat 32 (64 * (ld.block + 1)), .read⟩⟩, 0⟩ } ∧
        t.imageWindow = some ⟨.planImage, ld.image.toNat, 64 * u.coveredBlocks, none⟩)) ∧
  (∀ (s : State) (a : MemAccess) (answer : MemAnswer), s.port = some ⟨.planRead, a, true⟩ →
    exec (.planReadDone answer) s = .next { s with port := none })

/-- A load fails in the event in which its cause is found: a memory ERROR, a wrong CRC or sequence number, a block 0 or block 1 check, the layout lock, a pocket or rule record, each with its detail, and LOAD_ABORT, whose own acknowledgment follows (R26 to R31, R36, R37, R41). Block 0 and block 1 are tested by the conditions of R27 and R29 in the order of their field codes, the positions of a pocket block and of a rule block by those of R30 and R31 in ascending index, and bytes 56 to 59 of a pocket block after them; the first condition that fails is the one reported. That a reserved bit of a station field fails under RESERVED is the model's reading (log 10). Bytes, numbers and the CRC-16 of a block are read as R24 and R25 give, and a HEADER failure carries the field code of 10.5. -/
def Obligations.LoadFails : Prop :=
  (∀ (w : Word) (ws : List Word), wordsBytes [] = [] ∧ wordsBytes (w :: ws) =
    [w.extractLsb' 0 8, w.extractLsb' 8 8, w.extractLsb' 16 8, w.extractLsb' 24 8] ++
      wordsBytes ws) ∧
  (∀ (bs : List Byte) (i : Nat), byteAt bs i = (bs.getD i 0#8).toNat ∧
    le16At bs i = byteAt bs i + 256 * byteAt bs (i + 1) ∧
    le32At bs i = le16At bs i + 65536 * le16At bs (i + 2)) ∧
  (∀ (bs : List Byte) (b : Byte), crc16 [] = 0#16 ∧ crc16 (bs ++ [b]) =
    [7, 6, 5, 4, 3, 2, 1, 0].foldl (fun (r : BitVec 16) (i : Nat) =>
      if (r.getLsbD 15 ^^ b.getLsbD i) then (r <<< 1) ^^^ 0x1021#16 else r <<< 1) (crc16 bs)) ∧
  (∀ bs : List Byte, blockCrcGood bs = true ↔ (crc16 (bs.take 62)).toNat = le16At bs 62) ∧
  (∀ g : Granted, g.abandonedBy .plan =
    if g.job = .planRead then { g with abandoned := true } else g) ∧
  (∀ f : HeaderField, f.code =
    match f with
    | .magic => 1
    | .version => 2
    | .pocketCount => 3
    | .inductionRing => 4
    | .gateWindow => 5
    | .station st => 6 + st.val
    | .noticeRing => 10
    | .distances => 11
    | .stallTimeout => 12
    | .masters => 13
    | .extent => 14
    | .overlap => 15
    | .reserved => 16
    | .ruleCount => 17
    | .defaultPocket => 18
    | .noReadPocket => 19
    | .minGrade => 20
    | .missLimit => 21
    | .attnMode => 22
    | .paramReserved => 23) ∧
  (∀ (s : State) (ld : Load), s.plan.load = some ld →
     (∀ (a : MemAccess) (u : State), s.port = some ⟨.planRead, a, false⟩ →
       u = { s with port := none } →
       (∃ t, exec (.planReadDone .error) s = .next t ∧
         u.LoadFailedTo t ld .memory (BitVec.ofNat 32 ld.block) ∧
         ∀ v : State, v = { s with notice := { s.notice with memory := true } } →
           v.Raised t [ackNotice t.cmd.last]) ∧
       (∀ (data : Word) (bs : List Byte) (cause : LoadCause) (detail : Nat),
         bs = wordsBytes (ld.words ++ [data]) → ld.words.length = 15 →
         (blockCrcGood bs = false ∧ cause = .crc ∧ detail = ld.block) ∨
         (blockCrcGood bs = true ∧ le16At bs 60 ≠ ld.block ∧ cause = .sequence ∧
           detail = ld.block) ∨
         (blockCrcGood bs = true ∧ le16At bs 60 = ld.block ∧
           ((ld.layout = none ∧ cause = .header ∧ ∃ f,
             firstFailure ((Layout.mk (bs.take 60)).checks s.cb s.master) = some f ∧
               detail = f.code) ∨
            (ld.layout = none ∧ cause = .layoutLocked ∧ detail = 0 ∧
             firstFailure ((Layout.mk (bs.take 60)).checks s.cb s.master) = none ∧
             s.plan.layout ≠ some ⟨bs.take 60⟩ ∧
             (s.transport.line ≠ .stopped ∨ s.transit.letters ≠ [])) ∨
            (∃ l, ld.layout = some l ∧ ld.params = none ∧ cause = .header ∧ ∃ f,
             firstFailure (paramChecks bs l.pocketCount) = some f ∧ detail = f.code) ∨
            (∃ l p, ld.layout = some l ∧ ld.params = some p ∧
             ((ld.block < 2 + pocketBlocks l.pocketCount ∧ cause = .pocketRecord ∧
               pocketBlockFailure bs (ld.block - 2) l.pocketCount = some detail) ∨
              (2 + pocketBlocks l.pocketCount ≤ ld.block ∧ cause = .ruleRecord ∧
               ruleBlockFailure bs (ld.block - 2 - pocketBlocks l.pocketCount) l.pocketCount
                 p.ruleCount = some detail))))) →
         ∃ t, exec (.planReadDone (.ok data)) s = .next t ∧
           u.LoadFailedTo t ld cause (BitVec.ofNat 32 detail) ∧
           u.Raised t [ackNotice t.cmd.last])) ∧
     (s.resetLow = false → s.cmd.executing = true → ∀ u : State,
       u = { s with planReq := ⟨none, 0⟩, port := s.port.map (Granted.abandonedBy .plan) } →
       ∃ t t1, exec .loadAbort s = .next t ∧ u.LoadFailedTo t1 ld .aborted 0#32 ∧
         t.cmd = { t1.cmd with
           last := ⟨0x02#8, .ok, s.sweepOpen, none, 0#32⟩, ackCount := s.cmd.ackCount + 2 } ∧
         t.sweep = .idle ∧
         s.Raised t [ackNotice t1.cmd.last, ackNotice t.cmd.last] ∧
         { t with
           cmd := t1.cmd, sweep := t1.sweep, notice := t1.notice
           noticeReq := t1.noticeReq } = t1)) ∧
  (∀ (bs : List Byte) (cb : BitVec 4) (cm : MasterNo) (P : Nat),
    (∀ f, firstFailure ((Layout.mk (bs.take 60)).checks cb cm) = some f ↔
      f.code ≤ 16 ∧ ¬f.Holds bs cb cm P ∧ ∀ g : HeaderField, g.code < f.code → g.Holds bs cb cm P) ∧
    (firstFailure ((Layout.mk (bs.take 60)).checks cb cm) = none ↔
      ∀ f : HeaderField, f.code ≤ 16 → f.Holds bs cb cm P) ∧
    (∀ f, firstFailure (paramChecks bs P) = some f ↔
      17 ≤ f.code ∧ ¬f.Holds bs cb cm P ∧
      ∀ g : HeaderField, 17 ≤ g.code → g.code < f.code → g.Holds bs cb cm P) ∧
    (firstFailure (paramChecks bs P) = none ↔
      ∀ f : HeaderField, 17 ≤ f.code → f.Holds bs cb cm P)) ∧
  (∀ (bs : List Byte) (j P d : Nat),
    (pocketBlockFailure bs j P = some d ↔
      (∃ i < 7, d = 7 * j + i ∧ ¬PocketPositionGood bs i (7 * j + i) P ∧
        ∀ k < i, PocketPositionGood bs k (7 * j + k) P) ∨
      (d = 128 + j ∧ (∀ i < 7, PocketPositionGood bs i (7 * j + i) P) ∧
        ∃ k < 4, byteAt bs (56 + k) ≠ 0)) ∧
    (pocketBlockFailure bs j P = none ↔
      (∀ i < 7, PocketPositionGood bs i (7 * j + i) P) ∧ ∀ k < 4, byteAt bs (56 + k) = 0)) ∧
  (∀ (bs : List Byte) (j P N d : Nat),
    (ruleBlockFailure bs j P N = some d ↔
      ∃ i < 5, d = 5 * j + i ∧ ¬RulePositionGood bs i (5 * j + i) P N ∧
        ∀ k < i, RulePositionGood bs k (5 * j + k) P N) ∧
    (ruleBlockFailure bs j P N = none ↔
      ∀ i < 5, RulePositionGood bs i (5 * j + i) P N))

/-- The last block of an image passes: a changed layout is applied, with its stations, pockets and notice ring, or under a kept one the pockets' configuration alone is replaced; the rules, parameters, mask and mode are taken; the plan is VALID; every AWAIT_PLAN letter is resolved under it in list order; and the acknowledgment carries the plan identifier (R38 to R40, R166). A layout that is applied restarts the notice ring at entry 0: a notice word that memory has not been given is withdrawn, the FIFO keeps every entry, and where it holds one, word 0 of the head is presented for ring entry 0; under a kept layout the write in progress stands (R166). FEED_HOLD stands as its conditions demand, and a change of its level is raised as a notice, under the old mask, before the acknowledgment, which the new mask governs; that FEED_HOLD is evaluated before the mask is taken is the model's reading (log 12). -/
def Obligations.LoadCompletes : Prop :=
  ∀ (s : State) (a : MemAccess) (ld : Load) (data : Word) (bs : List Byte) (l : Layout)
    (p : Params) (records : List PocketRecord) (rules : List Rule),
    s.plan.load = some ld → s.port = some ⟨.planRead, a, false⟩ → ld.words.length = 15 →
    bs = wordsBytes (ld.words ++ [data]) → blockCrcGood bs = true → le16At bs 60 = ld.block →
    ld.layout = some l → ld.params = some p →
    ld.block + 1 = imageBlocks l.pocketCount p.ruleCount →
    (ld.block < 2 + pocketBlocks l.pocketCount ∧
      pocketBlockFailure bs (ld.block - 2) l.pocketCount = none ∧
      records = ld.records ++ pocketBlockRecords bs (ld.block - 2) l.pocketCount ∧
      rules = ld.rules) ∨
    (2 + pocketBlocks l.pocketCount ≤ ld.block ∧
      ruleBlockFailure bs (ld.block - 2 - pocketBlocks l.pocketCount) l.pocketCount
        p.ruleCount = none ∧
      records = ld.records ∧
      rules = ld.rules ++ ruleBlockRules bs (ld.block - 2 - pocketBlocks l.pocketCount)
        l.pocketCount p.ruleCount) →
    ∃ (t v m : State) (pk : Pockets), exec (.planReadDone (.ok data)) s = .next t ∧
      t.port = none ∧
      t.plan = ⟨.valid, none, if ld.changed then some l else s.plan.layout, rules, p.planId,
        p.defaultPocket, p.noReadPocket, p.minGrade, p.missLimit⟩ ∧
      (t.pockets, t.transit.letters) =
        resolveList t.plan (fun x => decide (x.state = .awaitPlan)) pk s.transit.letters ∧
      t.transport = { s.transport with feedHold := t.holdLevel } ∧
      t.cmd = ⟨false, ⟨0x01#8, .ok, ld.sweepCancelled, none, p.planId⟩, s.cmd.ackCount + 1⟩ ∧
      { v with notice := t.notice, noticeReq := t.noticeReq } = t ∧
      { m with notice := t.notice, noticeReq := t.noticeReq } = t ∧
      v.Raised m
        (if t.transport.feedHold = s.transport.feedHold then [] else [t.feedHoldNotice]) ∧
      (∀ w : State, w = { m with notice := { m.notice with
          mask := p.noticeMask, mode := p.attnMode, armed := true
          attn := p.attnMode == .level && t.plan.layout.isSome &&
            m.notice.producer != m.notice.consumer } } →
        w.Raised t [ackNotice t.cmd.last]) ∧
      (ld.changed = true →
        (∀ q : PocketIx, pk[q] = (match records[q.val]? with
          | some r => ⟨some r.capacity, r.threshold, r.partner,
              if r.opens then .opened else .disabled, 0, 0, 1#16⟩
          | none => ⟨none, 0, none, .disabled, 0, 0, 0#16⟩)) ∧
        (∀ st, t.station st = ⟨if l.stationPresent st then .hunt else .off, .expected, .seek, 0,
          0, none, (s.station st).rejects⟩) ∧
        t.transit.assembly = .waiting ∧ t.transit.lastTag = none ∧ t.transit.gap = none ∧
        (∀ begun, begun = decide (s.notice.fifo ≠ [] ∧ 1 % l.noticeSize ≠ 0) →
          v.notice = { s.notice with
            producer := 0, consumer := 0, ringFault := false
            writing := if begun then some 0 else none
            attn := s.notice.mode == .first && s.notice.attn } ∧
          (begun = false → v.noticeReq = ⟨none, 0⟩) ∧
          (∀ h rest, s.notice.fifo = h :: rest → begun = true →
            v.noticeReq = ⟨some ⟨.noticeWord, ⟨BitVec.ofNat 32 l.noticeBase,
              .write (h.word 0) 0xF#4⟩⟩, 0⟩))) ∧
      (ld.changed = false →
        (∀ q : PocketIx, pk[q] = (match records[q.val]? with
          | some r => { s.pocket q with
              capacity := some r.capacity, threshold := r.threshold, partner := r.partner }
          | none => s.pocket q)) ∧
        t.stations = s.stations ∧
        t.transit = { s.transit with letters := t.transit.letters } ∧
        v.notice = s.notice ∧ v.noticeReq = s.noticeReq) ∧
      { t with
        port := s.port, plan := s.plan, transport := s.transport, transit := s.transit
        stations := s.stations, pockets := s.pockets, cmd := s.cmd, notice := s.notice
        noticeReq := s.noticeReq } = s

/-! ### What every step keeps -/

/-- The invariants hold right after reset. -/
def Obligations.InvariantsHoldAtReset : Prop := State.reset.Inv

/-- The part's limits stand: at most 32 letters in transit and 64 with the retire buffer, four reads a letter, 32 notices, four waits; the chain engine presents no access while memory has one of its own; an entry is written only into a ring with room; and no two letters in transit share a slot (R20, R60, R63, R84, R145, R161, R163, R164). That a consumer write which fills the ring abandons the entry being written is the model's choice (log 22). -/
def Obligations.StepsKeepLimits : Prop :=
  (Config.maxTransit = 32 ∧ Config.maxSum = 64 ∧ Config.maxReads = 4 ∧ Config.maxFifo = 32 ∧
    Config.waitLimit = 4) ∧
  ∀ s t : State, s.Inv → step s = .next t → t.Bounded ∧ t.SlotsDistinct

/-- FEED_HOLD, the occupancy latch, the stall monitor and ATTN in LEVEL mode stand as their conditions demand after every step (R51, R56, R57, R167). -/
def Obligations.StepsKeepOutputs : Prop :=
  (Config.occupancySet = 48 ∧ Config.occupancyClear = 39) ∧
  ∀ s t : State, s.Inv → step s = .next t → t.OutputsRight

/-- The plan state, the load, the command state and the waiting letters agree after every step, and a load that will change the layout keeps the transit list empty (R28, R33, R34, R65, R158). -/
def Obligations.StepsKeepLoad : Prop :=
  ∀ s t : State, s.Inv → step s = .next t → t.LoadRight

/-- Every in-flight count is the number of letters decided to its pocket after every step; a closed or disabled pocket has none and a draining one has some (R65, R105, R106, R128). -/
def Obligations.StepsKeepPockets : Prop :=
  ∀ s t : State, s.Inv → step s = .next t → t.PocketsRight

/-- No letter is lost or made up: but for a reset, every letter in transit before a command is in transit after it or has one new record in the retire buffer; at most one letter enters; and records leave the buffer from its head, at most one in a command (R63, R65, R118, R141, R148). -/
def Obligations.LettersConserved : Prop :=
  ∀ (c : Instr) (s t : State), c ≠ .resetAssert → (∀ cb cm, c ≠ .resetRelease cb cm) →
    exec c s = .next t →
    ∃ (left : Nat) (new : List Disposition) (entered : List Tag), left ≤ 1 ∧
      entered.length ≤ 1 ∧ t.records = s.records.drop left ++ new ∧
      (new.map (·.tag) ++ t.tags).Perm (s.tags ++ entered)

/-- A decision stands: once DECIDED, a letter keeps its decision, its account key, its reason class, its forward-present flag and its read set until it leaves (R65, R84, R105). -/
def Obligations.DecisionsStand : Prop :=
  ∀ (c : Instr) (s t : State), s.SlotsDistinct → c ≠ .resetAssert →
    (∀ cb cm, c ≠ .resetRelease cb cm) → exec c s = .next t →
    ∀ l ∈ s.transit.letters, ∀ d, l.state = .decided d →
      ∀ x ∈ t.transit.letters, x.tag = l.tag →
        x.state = .decided d ∧ x.accountKey = l.accountKey ∧ x.reasonClass = l.reasonClass ∧
        x.forwardPresent = l.forwardPresent ∧ x.reads = l.reads
end

