-- ==== Sys2Proof/Laws/State.lean ====
section
/-! SUPPORT. One lemma for each update of the state: what it leaves as it was, and what it writes. -/

namespace Sys2Proof.Machine

/-! ### What the updates leave -/

/-- Only the pocket table changes. -/
@[simp] theorem setPocket_frame (p : PocketIx) (x : Pocket) (s : State) :
    (s.setPocket p x).pending = s.pending ∧ (s.setPocket p x).resetLow = s.resetLow ∧
    (s.setPocket p x).cb = s.cb ∧ (s.setPocket p x).master = s.master ∧
    (s.setPocket p x).backplane = s.backplane ∧ (s.setPocket p x).port = s.port ∧
    (s.setPocket p x).noticeReq = s.noticeReq ∧ (s.setPocket p x).chainReq = s.chainReq ∧
    (s.setPocket p x).planReq = s.planReq ∧ (s.setPocket p x).plan = s.plan ∧
    (s.setPocket p x).transport = s.transport ∧ (s.setPocket p x).transit = s.transit ∧
    (s.setPocket p x).stations = s.stations ∧ (s.setPocket p x).sweep = s.sweep ∧
    (s.setPocket p x).chain = s.chain ∧ (s.setPocket p x).retire = s.retire ∧
    (s.setPocket p x).cmd = s.cmd ∧ (s.setPocket p x).notice = s.notice := by
  simp [State.setPocket]

/-- Only the station contexts change. -/
@[simp] theorem setStation_frame (st : StationIx) (x : Station) (s : State) :
    (s.setStation st x).pending = s.pending ∧ (s.setStation st x).resetLow = s.resetLow ∧
    (s.setStation st x).cb = s.cb ∧ (s.setStation st x).master = s.master ∧
    (s.setStation st x).backplane = s.backplane ∧ (s.setStation st x).port = s.port ∧
    (s.setStation st x).noticeReq = s.noticeReq ∧ (s.setStation st x).chainReq = s.chainReq ∧
    (s.setStation st x).planReq = s.planReq ∧ (s.setStation st x).plan = s.plan ∧
    (s.setStation st x).transport = s.transport ∧ (s.setStation st x).transit = s.transit ∧
    (s.setStation st x).pockets = s.pockets ∧ (s.setStation st x).sweep = s.sweep ∧
    (s.setStation st x).chain = s.chain ∧ (s.setStation st x).retire = s.retire ∧
    (s.setStation st x).cmd = s.cmd ∧ (s.setStation st x).notice = s.notice := by
  simp [State.setStation]

/-- Only the transit list changes. -/
@[simp] theorem setLetters_frame (ls : List Letter) (s : State) :
    (s.setLetters ls).pending = s.pending ∧ (s.setLetters ls).resetLow = s.resetLow ∧
    (s.setLetters ls).cb = s.cb ∧ (s.setLetters ls).master = s.master ∧
    (s.setLetters ls).backplane = s.backplane ∧ (s.setLetters ls).port = s.port ∧
    (s.setLetters ls).noticeReq = s.noticeReq ∧ (s.setLetters ls).chainReq = s.chainReq ∧
    (s.setLetters ls).planReq = s.planReq ∧ (s.setLetters ls).plan = s.plan ∧
    (s.setLetters ls).transport = s.transport ∧ (s.setLetters ls).stations = s.stations ∧
    (s.setLetters ls).pockets = s.pockets ∧ (s.setLetters ls).sweep = s.sweep ∧
    (s.setLetters ls).chain = s.chain ∧ (s.setLetters ls).retire = s.retire ∧
    (s.setLetters ls).cmd = s.cmd ∧ (s.setLetters ls).notice = s.notice := by
  simp [State.setLetters]

/-- Only the notice unit's request changes. -/
@[simp] theorem presentNotice_frame (a : MemAccess) (s : State) :
    (s.presentNotice a).pending = s.pending ∧ (s.presentNotice a).resetLow = s.resetLow ∧
    (s.presentNotice a).cb = s.cb ∧ (s.presentNotice a).master = s.master ∧
    (s.presentNotice a).backplane = s.backplane ∧ (s.presentNotice a).port = s.port ∧
    (s.presentNotice a).chainReq = s.chainReq ∧ (s.presentNotice a).planReq = s.planReq ∧
    (s.presentNotice a).plan = s.plan ∧ (s.presentNotice a).transport = s.transport ∧
    (s.presentNotice a).transit = s.transit ∧ (s.presentNotice a).stations = s.stations ∧
    (s.presentNotice a).pockets = s.pockets ∧ (s.presentNotice a).sweep = s.sweep ∧
    (s.presentNotice a).chain = s.chain ∧ (s.presentNotice a).retire = s.retire ∧
    (s.presentNotice a).cmd = s.cmd ∧ (s.presentNotice a).notice = s.notice := by
  simp [State.presentNotice]

/-- Only the chain engine's request changes. -/
@[simp] theorem presentChain_frame (j : Job) (a : MemAccess) (s : State) :
    (s.presentChain j a).pending = s.pending ∧ (s.presentChain j a).resetLow = s.resetLow ∧
    (s.presentChain j a).cb = s.cb ∧ (s.presentChain j a).master = s.master ∧
    (s.presentChain j a).backplane = s.backplane ∧ (s.presentChain j a).port = s.port ∧
    (s.presentChain j a).noticeReq = s.noticeReq ∧ (s.presentChain j a).planReq = s.planReq ∧
    (s.presentChain j a).plan = s.plan ∧ (s.presentChain j a).transport = s.transport ∧
    (s.presentChain j a).transit = s.transit ∧ (s.presentChain j a).stations = s.stations ∧
    (s.presentChain j a).pockets = s.pockets ∧ (s.presentChain j a).sweep = s.sweep ∧
    (s.presentChain j a).chain = s.chain ∧ (s.presentChain j a).retire = s.retire ∧
    (s.presentChain j a).cmd = s.cmd ∧ (s.presentChain j a).notice = s.notice := by
  simp [State.presentChain]

/-- Only the plan loader's request changes. -/
@[simp] theorem presentPlan_frame (a : MemAccess) (s : State) :
    (s.presentPlan a).pending = s.pending ∧ (s.presentPlan a).resetLow = s.resetLow ∧
    (s.presentPlan a).cb = s.cb ∧ (s.presentPlan a).master = s.master ∧
    (s.presentPlan a).backplane = s.backplane ∧ (s.presentPlan a).port = s.port ∧
    (s.presentPlan a).noticeReq = s.noticeReq ∧ (s.presentPlan a).chainReq = s.chainReq ∧
    (s.presentPlan a).plan = s.plan ∧ (s.presentPlan a).transport = s.transport ∧
    (s.presentPlan a).transit = s.transit ∧ (s.presentPlan a).stations = s.stations ∧
    (s.presentPlan a).pockets = s.pockets ∧ (s.presentPlan a).sweep = s.sweep ∧
    (s.presentPlan a).chain = s.chain ∧ (s.presentPlan a).retire = s.retire ∧
    (s.presentPlan a).cmd = s.cmd ∧ (s.presentPlan a).notice = s.notice := by
  simp [State.presentPlan]

/-- Only the notice unit's request and the port's mark change. -/
@[simp] theorem withdrawNotice_frame (s : State) :
    (s.withdrawNotice).pending = s.pending ∧ (s.withdrawNotice).resetLow = s.resetLow ∧
    (s.withdrawNotice).cb = s.cb ∧ (s.withdrawNotice).master = s.master ∧
    (s.withdrawNotice).backplane = s.backplane ∧ (s.withdrawNotice).chainReq = s.chainReq ∧
    (s.withdrawNotice).planReq = s.planReq ∧ (s.withdrawNotice).plan = s.plan ∧
    (s.withdrawNotice).transport = s.transport ∧ (s.withdrawNotice).transit = s.transit ∧
    (s.withdrawNotice).stations = s.stations ∧ (s.withdrawNotice).pockets = s.pockets ∧
    (s.withdrawNotice).sweep = s.sweep ∧ (s.withdrawNotice).chain = s.chain ∧
    (s.withdrawNotice).retire = s.retire ∧ (s.withdrawNotice).cmd = s.cmd ∧
    (s.withdrawNotice).notice = s.notice := by
  simp [State.withdrawNotice]

/-- Only the chain engine's request and the port's mark change. -/
@[simp] theorem withdrawChain_frame (s : State) :
    (s.withdrawChain).pending = s.pending ∧ (s.withdrawChain).resetLow = s.resetLow ∧
    (s.withdrawChain).cb = s.cb ∧ (s.withdrawChain).master = s.master ∧
    (s.withdrawChain).backplane = s.backplane ∧ (s.withdrawChain).noticeReq = s.noticeReq ∧
    (s.withdrawChain).planReq = s.planReq ∧ (s.withdrawChain).plan = s.plan ∧
    (s.withdrawChain).transport = s.transport ∧ (s.withdrawChain).transit = s.transit ∧
    (s.withdrawChain).stations = s.stations ∧ (s.withdrawChain).pockets = s.pockets ∧
    (s.withdrawChain).sweep = s.sweep ∧ (s.withdrawChain).chain = s.chain ∧
    (s.withdrawChain).retire = s.retire ∧ (s.withdrawChain).cmd = s.cmd ∧
    (s.withdrawChain).notice = s.notice := by
  simp [State.withdrawChain]

/-- Only the plan loader's request and the port's mark change. -/
@[simp] theorem withdrawPlan_frame (s : State) :
    (s.withdrawPlan).pending = s.pending ∧ (s.withdrawPlan).resetLow = s.resetLow ∧
    (s.withdrawPlan).cb = s.cb ∧ (s.withdrawPlan).master = s.master ∧
    (s.withdrawPlan).backplane = s.backplane ∧ (s.withdrawPlan).noticeReq = s.noticeReq ∧
    (s.withdrawPlan).chainReq = s.chainReq ∧ (s.withdrawPlan).plan = s.plan ∧
    (s.withdrawPlan).transport = s.transport ∧ (s.withdrawPlan).transit = s.transit ∧
    (s.withdrawPlan).stations = s.stations ∧ (s.withdrawPlan).pockets = s.pockets ∧
    (s.withdrawPlan).sweep = s.sweep ∧ (s.withdrawPlan).chain = s.chain ∧
    (s.withdrawPlan).retire = s.retire ∧ (s.withdrawPlan).cmd = s.cmd ∧
    (s.withdrawPlan).notice = s.notice := by
  simp [State.withdrawPlan]

/-- Only the notice unit changes. -/
@[simp] theorem setMemoryFlag_frame (s : State) :
    (setMemoryFlag s).pending = s.pending ∧ (setMemoryFlag s).resetLow = s.resetLow ∧
    (setMemoryFlag s).cb = s.cb ∧ (setMemoryFlag s).master = s.master ∧
    (setMemoryFlag s).backplane = s.backplane ∧ (setMemoryFlag s).port = s.port ∧
    (setMemoryFlag s).noticeReq = s.noticeReq ∧ (setMemoryFlag s).chainReq = s.chainReq ∧
    (setMemoryFlag s).planReq = s.planReq ∧ (setMemoryFlag s).plan = s.plan ∧
    (setMemoryFlag s).transport = s.transport ∧ (setMemoryFlag s).transit = s.transit ∧
    (setMemoryFlag s).stations = s.stations ∧ (setMemoryFlag s).pockets = s.pockets ∧
    (setMemoryFlag s).sweep = s.sweep ∧ (setMemoryFlag s).chain = s.chain ∧
    (setMemoryFlag s).retire = s.retire ∧ (setMemoryFlag s).cmd = s.cmd := by
  simp [setMemoryFlag]

/-- Only the notice unit changes. -/
@[simp] theorem setGuardFlag_frame (s : State) :
    (setGuardFlag s).pending = s.pending ∧ (setGuardFlag s).resetLow = s.resetLow ∧
    (setGuardFlag s).cb = s.cb ∧ (setGuardFlag s).master = s.master ∧
    (setGuardFlag s).backplane = s.backplane ∧ (setGuardFlag s).port = s.port ∧
    (setGuardFlag s).noticeReq = s.noticeReq ∧ (setGuardFlag s).chainReq = s.chainReq ∧
    (setGuardFlag s).planReq = s.planReq ∧ (setGuardFlag s).plan = s.plan ∧
    (setGuardFlag s).transport = s.transport ∧ (setGuardFlag s).transit = s.transit ∧
    (setGuardFlag s).stations = s.stations ∧ (setGuardFlag s).pockets = s.pockets ∧
    (setGuardFlag s).sweep = s.sweep ∧ (setGuardFlag s).chain = s.chain ∧
    (setGuardFlag s).retire = s.retire ∧ (setGuardFlag s).cmd = s.cmd := by
  simp [setGuardFlag]

/-- Only the notice unit changes. -/
@[simp] theorem setAttn_frame (b : Bool) (s : State) :
    (setAttn b s).pending = s.pending ∧ (setAttn b s).resetLow = s.resetLow ∧
    (setAttn b s).cb = s.cb ∧ (setAttn b s).master = s.master ∧
    (setAttn b s).backplane = s.backplane ∧ (setAttn b s).port = s.port ∧
    (setAttn b s).noticeReq = s.noticeReq ∧ (setAttn b s).chainReq = s.chainReq ∧
    (setAttn b s).planReq = s.planReq ∧ (setAttn b s).plan = s.plan ∧
    (setAttn b s).transport = s.transport ∧ (setAttn b s).transit = s.transit ∧
    (setAttn b s).stations = s.stations ∧ (setAttn b s).pockets = s.pockets ∧
    (setAttn b s).sweep = s.sweep ∧ (setAttn b s).chain = s.chain ∧
    (setAttn b s).retire = s.retire ∧ (setAttn b s).cmd = s.cmd := by
  simp [setAttn]

/-- Only the notice unit changes. -/
@[simp] theorem setArmed_frame (b : Bool) (s : State) :
    (setArmed b s).pending = s.pending ∧ (setArmed b s).resetLow = s.resetLow ∧
    (setArmed b s).cb = s.cb ∧ (setArmed b s).master = s.master ∧
    (setArmed b s).backplane = s.backplane ∧ (setArmed b s).port = s.port ∧
    (setArmed b s).noticeReq = s.noticeReq ∧ (setArmed b s).chainReq = s.chainReq ∧
    (setArmed b s).planReq = s.planReq ∧ (setArmed b s).plan = s.plan ∧
    (setArmed b s).transport = s.transport ∧ (setArmed b s).transit = s.transit ∧
    (setArmed b s).stations = s.stations ∧ (setArmed b s).pockets = s.pockets ∧
    (setArmed b s).sweep = s.sweep ∧ (setArmed b s).chain = s.chain ∧
    (setArmed b s).retire = s.retire ∧ (setArmed b s).cmd = s.cmd := by
  simp [setArmed]

/-- Only the notice unit changes. -/
@[simp] theorem setMask_frame (m : BitVec 8) (s : State) :
    (setMask m s).pending = s.pending ∧ (setMask m s).resetLow = s.resetLow ∧
    (setMask m s).cb = s.cb ∧ (setMask m s).master = s.master ∧
    (setMask m s).backplane = s.backplane ∧ (setMask m s).port = s.port ∧
    (setMask m s).noticeReq = s.noticeReq ∧ (setMask m s).chainReq = s.chainReq ∧
    (setMask m s).planReq = s.planReq ∧ (setMask m s).plan = s.plan ∧
    (setMask m s).transport = s.transport ∧ (setMask m s).transit = s.transit ∧
    (setMask m s).stations = s.stations ∧ (setMask m s).pockets = s.pockets ∧
    (setMask m s).sweep = s.sweep ∧ (setMask m s).chain = s.chain ∧
    (setMask m s).retire = s.retire ∧ (setMask m s).cmd = s.cmd := by
  simp [setMask]

/-- Only the transit list's assembly changes. -/
@[simp] theorem setAssembly_frame (a : EntryAssembly) (s : State) :
    (setAssembly a s).pending = s.pending ∧ (setAssembly a s).resetLow = s.resetLow ∧
    (setAssembly a s).cb = s.cb ∧ (setAssembly a s).master = s.master ∧
    (setAssembly a s).backplane = s.backplane ∧ (setAssembly a s).port = s.port ∧
    (setAssembly a s).noticeReq = s.noticeReq ∧ (setAssembly a s).chainReq = s.chainReq ∧
    (setAssembly a s).planReq = s.planReq ∧ (setAssembly a s).plan = s.plan ∧
    (setAssembly a s).transport = s.transport ∧ (setAssembly a s).stations = s.stations ∧
    (setAssembly a s).pockets = s.pockets ∧ (setAssembly a s).sweep = s.sweep ∧
    (setAssembly a s).chain = s.chain ∧ (setAssembly a s).retire = s.retire ∧
    (setAssembly a s).cmd = s.cmd ∧ (setAssembly a s).notice = s.notice := by
  simp [setAssembly]

/-- Only the memory port changes. -/
@[simp] theorem freePort_frame (s : State) :
    (freePort s).pending = s.pending ∧ (freePort s).resetLow = s.resetLow ∧
    (freePort s).cb = s.cb ∧ (freePort s).master = s.master ∧
    (freePort s).backplane = s.backplane ∧ (freePort s).noticeReq = s.noticeReq ∧
    (freePort s).chainReq = s.chainReq ∧ (freePort s).planReq = s.planReq ∧
    (freePort s).plan = s.plan ∧ (freePort s).transport = s.transport ∧
    (freePort s).transit = s.transit ∧ (freePort s).stations = s.stations ∧
    (freePort s).pockets = s.pockets ∧ (freePort s).sweep = s.sweep ∧
    (freePort s).chain = s.chain ∧ (freePort s).retire = s.retire ∧ (freePort s).cmd = s.cmd ∧
    (freePort s).notice = s.notice := by
  simp [freePort]

/-- Only the backplane port changes. -/
@[simp] theorem respond_frame (m : MasterNo) (a : Option (Option Word)) (s : State) :
    (respond m a s).pending = s.pending ∧ (respond m a s).resetLow = s.resetLow ∧
    (respond m a s).cb = s.cb ∧ (respond m a s).master = s.master ∧
    (respond m a s).port = s.port ∧ (respond m a s).noticeReq = s.noticeReq ∧
    (respond m a s).chainReq = s.chainReq ∧ (respond m a s).planReq = s.planReq ∧
    (respond m a s).plan = s.plan ∧ (respond m a s).transport = s.transport ∧
    (respond m a s).transit = s.transit ∧ (respond m a s).stations = s.stations ∧
    (respond m a s).pockets = s.pockets ∧ (respond m a s).sweep = s.sweep ∧
    (respond m a s).chain = s.chain ∧ (respond m a s).retire = s.retire ∧
    (respond m a s).cmd = s.cmd ∧ (respond m a s).notice = s.notice := by
  simp [respond]

/-- Only the backplane port changes. -/
@[simp] theorem respondWord_frame (m : MasterNo) (w : Word) (s : State) :
    (respondWord m w s).pending = s.pending ∧ (respondWord m w s).resetLow = s.resetLow ∧
    (respondWord m w s).cb = s.cb ∧ (respondWord m w s).master = s.master ∧
    (respondWord m w s).port = s.port ∧ (respondWord m w s).noticeReq = s.noticeReq ∧
    (respondWord m w s).chainReq = s.chainReq ∧ (respondWord m w s).planReq = s.planReq ∧
    (respondWord m w s).plan = s.plan ∧ (respondWord m w s).transport = s.transport ∧
    (respondWord m w s).transit = s.transit ∧ (respondWord m w s).stations = s.stations ∧
    (respondWord m w s).pockets = s.pockets ∧ (respondWord m w s).sweep = s.sweep ∧
    (respondWord m w s).chain = s.chain ∧ (respondWord m w s).retire = s.retire ∧
    (respondWord m w s).cmd = s.cmd ∧ (respondWord m w s).notice = s.notice := by
  simp [respondWord]

/-- Only the backplane port changes. -/
@[simp] theorem forward_frame (a : Access) (r : Region) (s : State) :
    (forward a r s).pending = s.pending ∧ (forward a r s).resetLow = s.resetLow ∧
    (forward a r s).cb = s.cb ∧ (forward a r s).master = s.master ∧
    (forward a r s).port = s.port ∧ (forward a r s).noticeReq = s.noticeReq ∧
    (forward a r s).chainReq = s.chainReq ∧ (forward a r s).planReq = s.planReq ∧
    (forward a r s).plan = s.plan ∧ (forward a r s).transport = s.transport ∧
    (forward a r s).transit = s.transit ∧ (forward a r s).stations = s.stations ∧
    (forward a r s).pockets = s.pockets ∧ (forward a r s).sweep = s.sweep ∧
    (forward a r s).chain = s.chain ∧ (forward a r s).retire = s.retire ∧
    (forward a r s).cmd = s.cmd ∧ (forward a r s).notice = s.notice := by
  simp [forward]

/-! ### What the updates write -/

@[simp] theorem setPocket_pockets (s : State) (p : PocketIx) (x : Pocket) :
    (s.setPocket p x).pockets = s.pockets.set p.val x p.isLt := rfl

@[simp] theorem setStation_stations (s : State) (st : StationIx) (x : Station) :
    (s.setStation st x).stations = s.stations.set st.val x st.isLt := rfl

@[simp] theorem setLetters_transit (s : State) (ls : List Letter) :
    (s.setLetters ls).transit = { s.transit with letters := ls } := rfl

@[simp] theorem presentNotice_noticeReq (s : State) (a : MemAccess) :
    (s.presentNotice a).noticeReq = .present .noticeWord a := rfl

@[simp] theorem presentChain_chainReq (s : State) (j : Job) (a : MemAccess) :
    (s.presentChain j a).chainReq =
      if s.atMemory .chain then s.chainReq else .present j a := rfl

@[simp] theorem presentPlan_planReq (s : State) (a : MemAccess) :
    (s.presentPlan a).planReq = .present .planRead a := rfl

@[simp] theorem withdrawNotice_written (s : State) :
    s.withdrawNotice.noticeReq = .reset ∧
      s.withdrawNotice.port = s.port.map (Granted.abandonedBy .notice) := ⟨rfl, rfl⟩

@[simp] theorem withdrawChain_written (s : State) :
    s.withdrawChain.chainReq = .reset ∧
      s.withdrawChain.port = s.port.map (Granted.abandonedBy .chain) := ⟨rfl, rfl⟩

@[simp] theorem withdrawPlan_written (s : State) :
    s.withdrawPlan.planReq = .reset ∧
      s.withdrawPlan.port = s.port.map (Granted.abandonedBy .plan) := ⟨rfl, rfl⟩

@[simp] theorem setMemoryFlag_notice (s : State) :
    (setMemoryFlag s).notice = { s.notice with memory := true } := rfl

@[simp] theorem setGuardFlag_notice (s : State) :
    (setGuardFlag s).notice = { s.notice with guard := true } := rfl

@[simp] theorem setAttn_notice (b : Bool) (s : State) :
    (setAttn b s).notice = { s.notice with attn := b } := rfl

@[simp] theorem setArmed_notice (b : Bool) (s : State) :
    (setArmed b s).notice = { s.notice with armed := b } := rfl

@[simp] theorem setMask_notice (m : BitVec 8) (s : State) :
    (setMask m s).notice = { s.notice with mask := m } := rfl

@[simp] theorem setAssembly_transit (a : EntryAssembly) (s : State) :
    (setAssembly a s).transit = { s.transit with assembly := a } := rfl

@[simp] theorem freePort_port (s : State) : (freePort s).port = none := rfl

@[simp] theorem respond_backplane (m : MasterNo) (a : Option (Option Word)) (s : State) :
    (respond m a s).backplane = { s.backplane with response := some ⟨m, a⟩ } := rfl

@[simp] theorem respondWord_backplane (m : MasterNo) (w : Word) (s : State) :
    (respondWord m w s).backplane = { s.backplane with response := some ⟨m, some (some w)⟩ } := rfl

@[simp] theorem forward_backplane (a : Access) (r : Region) (s : State) :
    (forward a r s).backplane = ⟨some ⟨a, r, false⟩, none⟩ := rfl

/-! ### Reading a record after a write -/

@[simp] theorem setPocket_pocket (s : State) (p q : PocketIx) (x : Pocket) :
    (s.setPocket p x).pocket q = if p = q then x else s.pocket q := by
  simp [State.pocket, Vector.getElem_set, Fin.ext_iff]

@[simp] theorem setStation_station (s : State) (a b : StationIx) (x : Station) :
    (s.setStation a x).station b = if a = b then x else s.station b := by
  simp [State.station, Vector.getElem_set, Fin.ext_iff]

/-- A pocket depends on the pocket table alone. -/
theorem pocket_congr {s t : State} (h : s.pockets = t.pockets) (p : PocketIx) :
    s.pocket p = t.pocket p := by simp [State.pocket, h]

/-- A station context depends on the contexts alone. -/
theorem station_congr {s t : State} (h : s.stations = t.stations) (st : StationIx) :
    s.station st = t.station st := by simp [State.station, h]

end Sys2Proof.Machine
end

