-- ==== Sys2Proof/Laws/Frames.lean ====
section
/-! SUPPORT. One lemma for each shared operation: the fields of the state that it cannot change. -/

namespace Sys2Proof.Machine

/-- What presentNoticeWord leaves. -/
@[simp] theorem presentNoticeWord_frame (k : Fin 4) (s : State) :
    (presentNoticeWord k s).pending = s.pending ∧ (presentNoticeWord k s).resetLow = s.resetLow ∧
    (presentNoticeWord k s).cb = s.cb ∧ (presentNoticeWord k s).master = s.master ∧
    (presentNoticeWord k s).backplane = s.backplane ∧ (presentNoticeWord k s).port = s.port ∧
    (presentNoticeWord k s).chainReq = s.chainReq ∧ (presentNoticeWord k s).planReq = s.planReq ∧
    (presentNoticeWord k s).plan = s.plan ∧ (presentNoticeWord k s).transport = s.transport ∧
    (presentNoticeWord k s).transit = s.transit ∧ (presentNoticeWord k s).stations = s.stations ∧
    (presentNoticeWord k s).pockets = s.pockets ∧ (presentNoticeWord k s).sweep = s.sweep ∧
    (presentNoticeWord k s).chain = s.chain ∧ (presentNoticeWord k s).retire = s.retire ∧
    (presentNoticeWord k s).cmd = s.cmd := by
  unfold presentNoticeWord
  split <;> simp

/-- What noticePump leaves. -/
@[simp] theorem noticePump_frame (s : State) :
    (noticePump s).pending = s.pending ∧ (noticePump s).resetLow = s.resetLow ∧
    (noticePump s).cb = s.cb ∧ (noticePump s).master = s.master ∧
    (noticePump s).backplane = s.backplane ∧ (noticePump s).port = s.port ∧
    (noticePump s).chainReq = s.chainReq ∧ (noticePump s).planReq = s.planReq ∧
    (noticePump s).plan = s.plan ∧ (noticePump s).transport = s.transport ∧
    (noticePump s).transit = s.transit ∧ (noticePump s).stations = s.stations ∧
    (noticePump s).pockets = s.pockets ∧ (noticePump s).sweep = s.sweep ∧
    (noticePump s).chain = s.chain ∧ (noticePump s).retire = s.retire ∧ (noticePump s).cmd = s.cmd := by
  unfold noticePump
  split <;> simp

/-- What enqueueNotice leaves. -/
@[simp] theorem enqueueNotice_frame (n : Notice) (s : State) :
    (enqueueNotice n s).pending = s.pending ∧ (enqueueNotice n s).resetLow = s.resetLow ∧
    (enqueueNotice n s).cb = s.cb ∧ (enqueueNotice n s).master = s.master ∧
    (enqueueNotice n s).backplane = s.backplane ∧ (enqueueNotice n s).port = s.port ∧
    (enqueueNotice n s).chainReq = s.chainReq ∧ (enqueueNotice n s).planReq = s.planReq ∧
    (enqueueNotice n s).plan = s.plan ∧ (enqueueNotice n s).transport = s.transport ∧
    (enqueueNotice n s).transit = s.transit ∧ (enqueueNotice n s).stations = s.stations ∧
    (enqueueNotice n s).pockets = s.pockets ∧ (enqueueNotice n s).sweep = s.sweep ∧
    (enqueueNotice n s).chain = s.chain ∧ (enqueueNotice n s).retire = s.retire ∧
    (enqueueNotice n s).cmd = s.cmd := by
  unfold enqueueNotice
  split <;> simp

/-- What raise leaves. -/
@[simp] theorem raise_frame (n : Notice) (s : State) :
    (raise n s).pending = s.pending ∧ (raise n s).resetLow = s.resetLow ∧ (raise n s).cb = s.cb ∧
    (raise n s).master = s.master ∧ (raise n s).backplane = s.backplane ∧
    (raise n s).port = s.port ∧ (raise n s).chainReq = s.chainReq ∧
    (raise n s).planReq = s.planReq ∧ (raise n s).plan = s.plan ∧
    (raise n s).transport = s.transport ∧ (raise n s).transit = s.transit ∧
    (raise n s).stations = s.stations ∧ (raise n s).pockets = s.pockets ∧
    (raise n s).sweep = s.sweep ∧ (raise n s).chain = s.chain ∧ (raise n s).retire = s.retire ∧
    (raise n s).cmd = s.cmd := by
  unfold raise
  split <;> simp

/-- What evalFeedHold leaves. -/
@[simp] theorem evalFeedHold_frame (s : State) :
    (evalFeedHold s).pending = s.pending ∧ (evalFeedHold s).resetLow = s.resetLow ∧
    (evalFeedHold s).cb = s.cb ∧ (evalFeedHold s).master = s.master ∧
    (evalFeedHold s).backplane = s.backplane ∧ (evalFeedHold s).port = s.port ∧
    (evalFeedHold s).chainReq = s.chainReq ∧ (evalFeedHold s).planReq = s.planReq ∧
    (evalFeedHold s).plan = s.plan ∧ (evalFeedHold s).transit = s.transit ∧
    (evalFeedHold s).stations = s.stations ∧ (evalFeedHold s).pockets = s.pockets ∧
    (evalFeedHold s).sweep = s.sweep ∧ (evalFeedHold s).chain = s.chain ∧
    (evalFeedHold s).retire = s.retire ∧ (evalFeedHold s).cmd = s.cmd := by
  unfold evalFeedHold
  split <;> simp

/-- What evalOccupancy leaves. -/
@[simp] theorem evalOccupancy_frame (s : State) :
    (evalOccupancy s).pending = s.pending ∧ (evalOccupancy s).resetLow = s.resetLow ∧
    (evalOccupancy s).cb = s.cb ∧ (evalOccupancy s).master = s.master ∧
    (evalOccupancy s).backplane = s.backplane ∧ (evalOccupancy s).port = s.port ∧
    (evalOccupancy s).chainReq = s.chainReq ∧ (evalOccupancy s).planReq = s.planReq ∧
    (evalOccupancy s).plan = s.plan ∧ (evalOccupancy s).transit = s.transit ∧
    (evalOccupancy s).stations = s.stations ∧ (evalOccupancy s).pockets = s.pockets ∧
    (evalOccupancy s).sweep = s.sweep ∧ (evalOccupancy s).chain = s.chain ∧
    (evalOccupancy s).retire = s.retire ∧ (evalOccupancy s).cmd = s.cmd := by
  simp [evalOccupancy]

/-- What restartStall leaves. -/
@[simp] theorem restartStall_frame (s : State) :
    (restartStall s).pending = s.pending ∧ (restartStall s).resetLow = s.resetLow ∧
    (restartStall s).cb = s.cb ∧ (restartStall s).master = s.master ∧
    (restartStall s).backplane = s.backplane ∧ (restartStall s).port = s.port ∧
    (restartStall s).noticeReq = s.noticeReq ∧ (restartStall s).chainReq = s.chainReq ∧
    (restartStall s).planReq = s.planReq ∧ (restartStall s).plan = s.plan ∧
    (restartStall s).transit = s.transit ∧ (restartStall s).stations = s.stations ∧
    (restartStall s).pockets = s.pockets ∧ (restartStall s).sweep = s.sweep ∧
    (restartStall s).chain = s.chain ∧ (restartStall s).retire = s.retire ∧
    (restartStall s).cmd = s.cmd ∧ (restartStall s).notice = s.notice := by
  simp [restartStall]

/-- What stopStallIfEmpty leaves. -/
@[simp] theorem stopStallIfEmpty_frame (s : State) :
    (stopStallIfEmpty s).pending = s.pending ∧ (stopStallIfEmpty s).resetLow = s.resetLow ∧
    (stopStallIfEmpty s).cb = s.cb ∧ (stopStallIfEmpty s).master = s.master ∧
    (stopStallIfEmpty s).backplane = s.backplane ∧ (stopStallIfEmpty s).port = s.port ∧
    (stopStallIfEmpty s).noticeReq = s.noticeReq ∧ (stopStallIfEmpty s).chainReq = s.chainReq ∧
    (stopStallIfEmpty s).planReq = s.planReq ∧ (stopStallIfEmpty s).plan = s.plan ∧
    (stopStallIfEmpty s).transit = s.transit ∧ (stopStallIfEmpty s).stations = s.stations ∧
    (stopStallIfEmpty s).pockets = s.pockets ∧ (stopStallIfEmpty s).sweep = s.sweep ∧
    (stopStallIfEmpty s).chain = s.chain ∧ (stopStallIfEmpty s).retire = s.retire ∧
    (stopStallIfEmpty s).cmd = s.cmd ∧ (stopStallIfEmpty s).notice = s.notice := by
  unfold stopStallIfEmpty
  split <;> simp

/-- What setLine leaves. -/
@[simp] theorem setLine_frame (l : LineState) (c : LineCause) (s : State) :
    (setLine l c s).pending = s.pending ∧ (setLine l c s).resetLow = s.resetLow ∧
    (setLine l c s).cb = s.cb ∧ (setLine l c s).master = s.master ∧
    (setLine l c s).backplane = s.backplane ∧ (setLine l c s).port = s.port ∧
    (setLine l c s).chainReq = s.chainReq ∧ (setLine l c s).planReq = s.planReq ∧
    (setLine l c s).plan = s.plan ∧ (setLine l c s).transit = s.transit ∧
    (setLine l c s).stations = s.stations ∧ (setLine l c s).pockets = s.pockets ∧
    (setLine l c s).sweep = s.sweep ∧ (setLine l c s).chain = s.chain ∧
    (setLine l c s).retire = s.retire ∧ (setLine l c s).cmd = s.cmd := by
  simp [setLine]

/-- What acknowledge leaves. -/
@[simp] theorem acknowledge_frame (r : CmdResult) (s : State) :
    (acknowledge r s).pending = s.pending ∧ (acknowledge r s).resetLow = s.resetLow ∧
    (acknowledge r s).cb = s.cb ∧ (acknowledge r s).master = s.master ∧
    (acknowledge r s).backplane = s.backplane ∧ (acknowledge r s).port = s.port ∧
    (acknowledge r s).chainReq = s.chainReq ∧ (acknowledge r s).planReq = s.planReq ∧
    (acknowledge r s).plan = s.plan ∧ (acknowledge r s).transport = s.transport ∧
    (acknowledge r s).transit = s.transit ∧ (acknowledge r s).stations = s.stations ∧
    (acknowledge r s).pockets = s.pockets ∧ (acknowledge r s).sweep = s.sweep ∧
    (acknowledge r s).chain = s.chain ∧ (acknowledge r s).retire = s.retire := by
  simp [acknowledge]

/-- What ackTaken leaves. -/
@[simp] theorem ackTaken_frame (c : Command) (arg : Word) (s : State) :
    (ackTaken c arg s).pending = s.pending ∧ (ackTaken c arg s).resetLow = s.resetLow ∧
    (ackTaken c arg s).cb = s.cb ∧ (ackTaken c arg s).master = s.master ∧
    (ackTaken c arg s).backplane = s.backplane ∧ (ackTaken c arg s).port = s.port ∧
    (ackTaken c arg s).chainReq = s.chainReq ∧ (ackTaken c arg s).planReq = s.planReq ∧
    (ackTaken c arg s).plan = s.plan ∧ (ackTaken c arg s).transport = s.transport ∧
    (ackTaken c arg s).transit = s.transit ∧ (ackTaken c arg s).stations = s.stations ∧
    (ackTaken c arg s).pockets = s.pockets ∧ (ackTaken c arg s).chain = s.chain ∧
    (ackTaken c arg s).retire = s.retire := by
  simp [ackTaken]

/-- What ackSweep leaves. -/
@[simp] theorem ackSweep_frame (c : Command) (arg : Word) (s : State) :
    (ackSweep c arg s).pending = s.pending ∧ (ackSweep c arg s).resetLow = s.resetLow ∧
    (ackSweep c arg s).cb = s.cb ∧ (ackSweep c arg s).master = s.master ∧
    (ackSweep c arg s).backplane = s.backplane ∧ (ackSweep c arg s).port = s.port ∧
    (ackSweep c arg s).chainReq = s.chainReq ∧ (ackSweep c arg s).planReq = s.planReq ∧
    (ackSweep c arg s).plan = s.plan ∧ (ackSweep c arg s).transport = s.transport ∧
    (ackSweep c arg s).transit = s.transit ∧ (ackSweep c arg s).stations = s.stations ∧
    (ackSweep c arg s).pockets = s.pockets ∧ (ackSweep c arg s).sweep = s.sweep ∧
    (ackSweep c arg s).chain = s.chain ∧ (ackSweep c arg s).retire = s.retire := by
  simp [ackSweep]

/-- What refuse leaves. -/
@[simp] theorem refuse_frame (c : Command) (r : ResultCode) (s : State) :
    (refuse c r s).pending = s.pending ∧ (refuse c r s).resetLow = s.resetLow ∧
    (refuse c r s).cb = s.cb ∧ (refuse c r s).master = s.master ∧
    (refuse c r s).backplane = s.backplane ∧ (refuse c r s).port = s.port ∧
    (refuse c r s).chainReq = s.chainReq ∧ (refuse c r s).planReq = s.planReq ∧
    (refuse c r s).plan = s.plan ∧ (refuse c r s).transport = s.transport ∧
    (refuse c r s).transit = s.transit ∧ (refuse c r s).stations = s.stations ∧
    (refuse c r s).pockets = s.pockets ∧ (refuse c r s).sweep = s.sweep ∧
    (refuse c r s).chain = s.chain ∧ (refuse c r s).retire = s.retire := by
  simp [refuse]

/-- What setChainState leaves. -/
@[simp] theorem setChainState_frame (st : ChainState) (c : ChainCause) (s : State) :
    (setChainState st c s).pending = s.pending ∧ (setChainState st c s).resetLow = s.resetLow ∧
    (setChainState st c s).cb = s.cb ∧ (setChainState st c s).master = s.master ∧
    (setChainState st c s).backplane = s.backplane ∧ (setChainState st c s).port = s.port ∧
    (setChainState st c s).chainReq = s.chainReq ∧ (setChainState st c s).planReq = s.planReq ∧
    (setChainState st c s).plan = s.plan ∧ (setChainState st c s).transport = s.transport ∧
    (setChainState st c s).transit = s.transit ∧ (setChainState st c s).stations = s.stations ∧
    (setChainState st c s).pockets = s.pockets ∧ (setChainState st c s).sweep = s.sweep ∧
    (setChainState st c s).retire = s.retire ∧ (setChainState st c s).cmd = s.cmd := by
  simp [setChainState]

/-- What chainFault leaves. -/
@[simp] theorem chainFault_frame (f : ChainFault) (s : State) :
    (chainFault f s).pending = s.pending ∧ (chainFault f s).resetLow = s.resetLow ∧
    (chainFault f s).cb = s.cb ∧ (chainFault f s).master = s.master ∧
    (chainFault f s).backplane = s.backplane ∧ (chainFault f s).port = s.port ∧
    (chainFault f s).chainReq = s.chainReq ∧ (chainFault f s).planReq = s.planReq ∧
    (chainFault f s).plan = s.plan ∧ (chainFault f s).transport = s.transport ∧
    (chainFault f s).transit = s.transit ∧ (chainFault f s).stations = s.stations ∧
    (chainFault f s).pockets = s.pockets ∧ (chainFault f s).sweep = s.sweep ∧
    (chainFault f s).retire = s.retire ∧ (chainFault f s).cmd = s.cmd := by
  simp [chainFault]

/-- What chainMemoryFault leaves. -/
@[simp] theorem chainMemoryFault_frame (s : State) :
    (chainMemoryFault s).pending = s.pending ∧ (chainMemoryFault s).resetLow = s.resetLow ∧
    (chainMemoryFault s).cb = s.cb ∧ (chainMemoryFault s).master = s.master ∧
    (chainMemoryFault s).backplane = s.backplane ∧ (chainMemoryFault s).port = s.port ∧
    (chainMemoryFault s).chainReq = s.chainReq ∧ (chainMemoryFault s).planReq = s.planReq ∧
    (chainMemoryFault s).plan = s.plan ∧ (chainMemoryFault s).transport = s.transport ∧
    (chainMemoryFault s).transit = s.transit ∧ (chainMemoryFault s).stations = s.stations ∧
    (chainMemoryFault s).pockets = s.pockets ∧ (chainMemoryFault s).sweep = s.sweep ∧
    (chainMemoryFault s).retire = s.retire ∧ (chainMemoryFault s).cmd = s.cmd := by
  simp [chainMemoryFault]

/-- What writeCompletion leaves. -/
@[simp] theorem writeCompletion_frame (err : Bool) (e : EndCause) (n : Nat) (s : State) :
    (writeCompletion err e n s).pending = s.pending ∧
    (writeCompletion err e n s).resetLow = s.resetLow ∧ (writeCompletion err e n s).cb = s.cb ∧
    (writeCompletion err e n s).master = s.master ∧
    (writeCompletion err e n s).backplane = s.backplane ∧
    (writeCompletion err e n s).port = s.port ∧
    (writeCompletion err e n s).noticeReq = s.noticeReq ∧
    (writeCompletion err e n s).planReq = s.planReq ∧ (writeCompletion err e n s).plan = s.plan ∧
    (writeCompletion err e n s).transport = s.transport ∧
    (writeCompletion err e n s).transit = s.transit ∧
    (writeCompletion err e n s).stations = s.stations ∧
    (writeCompletion err e n s).pockets = s.pockets ∧
    (writeCompletion err e n s).sweep = s.sweep ∧ (writeCompletion err e n s).chain = s.chain ∧
    (writeCompletion err e n s).retire = s.retire ∧ (writeCompletion err e n s).cmd = s.cmd ∧
    (writeCompletion err e n s).notice = s.notice := by
  simp [writeCompletion]

/-- What presentWork leaves. -/
@[simp] theorem presentWork_frame (s : State) :
    (presentWork s).pending = s.pending ∧
    (presentWork s).resetLow = s.resetLow ∧ (presentWork s).cb = s.cb ∧
    (presentWork s).master = s.master ∧
    (presentWork s).backplane = s.backplane ∧ (presentWork s).port = s.port ∧
    (presentWork s).noticeReq = s.noticeReq ∧
    (presentWork s).planReq = s.planReq ∧ (presentWork s).plan = s.plan ∧
    (presentWork s).transport = s.transport ∧
    (presentWork s).transit = s.transit ∧
    (presentWork s).stations = s.stations ∧
    (presentWork s).pockets = s.pockets ∧ (presentWork s).sweep = s.sweep ∧
    (presentWork s).chain = s.chain ∧ (presentWork s).retire = s.retire ∧ (presentWork s).cmd = s.cmd ∧
    (presentWork s).notice = s.notice := by
  unfold presentWork
  split <;> first | simp | (split <;> simp)

/-- What beginWork leaves. -/
@[simp] theorem beginWork_frame (w : ChainWork) (s : State) :
    (beginWork w s).pending = s.pending ∧
    (beginWork w s).resetLow = s.resetLow ∧ (beginWork w s).cb = s.cb ∧
    (beginWork w s).master = s.master ∧
    (beginWork w s).backplane = s.backplane ∧ (beginWork w s).port = s.port ∧
    (beginWork w s).noticeReq = s.noticeReq ∧
    (beginWork w s).planReq = s.planReq ∧ (beginWork w s).plan = s.plan ∧
    (beginWork w s).transport = s.transport ∧
    (beginWork w s).transit = s.transit ∧
    (beginWork w s).stations = s.stations ∧
    (beginWork w s).pockets = s.pockets ∧ (beginWork w s).sweep = s.sweep ∧
    (beginWork w s).retire = s.retire ∧ (beginWork w s).cmd = s.cmd ∧
    (beginWork w s).notice = s.notice := by
  simp [beginWork]

/-- What fetchBegin leaves. -/
@[simp] theorem fetchBegin_frame (a : Word) (s : State) :
    (fetchBegin a s).pending = s.pending ∧ (fetchBegin a s).resetLow = s.resetLow ∧
    (fetchBegin a s).cb = s.cb ∧ (fetchBegin a s).master = s.master ∧
    (fetchBegin a s).backplane = s.backplane ∧ (fetchBegin a s).port = s.port ∧
    (fetchBegin a s).planReq = s.planReq ∧ (fetchBegin a s).plan = s.plan ∧
    (fetchBegin a s).transport = s.transport ∧ (fetchBegin a s).transit = s.transit ∧
    (fetchBegin a s).stations = s.stations ∧ (fetchBegin a s).pockets = s.pockets ∧
    (fetchBegin a s).sweep = s.sweep ∧ (fetchBegin a s).retire = s.retire ∧
    (fetchBegin a s).cmd = s.cmd := by
  simp only [fetchBegin]
  split <;> simp

/-- What chainPump leaves. -/
@[simp] theorem chainPump_frame (s : State) :
    (chainPump s).pending = s.pending ∧ (chainPump s).resetLow = s.resetLow ∧
    (chainPump s).cb = s.cb ∧ (chainPump s).master = s.master ∧
    (chainPump s).backplane = s.backplane ∧ (chainPump s).port = s.port ∧
    (chainPump s).noticeReq = s.noticeReq ∧ (chainPump s).planReq = s.planReq ∧
    (chainPump s).plan = s.plan ∧ (chainPump s).transport = s.transport ∧
    (chainPump s).transit = s.transit ∧ (chainPump s).stations = s.stations ∧
    (chainPump s).pockets = s.pockets ∧ (chainPump s).sweep = s.sweep ∧
    (chainPump s).retire = s.retire ∧ (chainPump s).cmd = s.cmd ∧ (chainPump s).notice = s.notice := by
  unfold chainPump
  split <;> simp

/-- What endDescriptor leaves. -/
@[simp] theorem endDescriptor_frame (e : EndCause) (s : State) :
    (endDescriptor e s).pending = s.pending ∧ (endDescriptor e s).resetLow = s.resetLow ∧
    (endDescriptor e s).cb = s.cb ∧ (endDescriptor e s).master = s.master ∧
    (endDescriptor e s).backplane = s.backplane ∧ (endDescriptor e s).port = s.port ∧
    (endDescriptor e s).noticeReq = s.noticeReq ∧ (endDescriptor e s).planReq = s.planReq ∧
    (endDescriptor e s).plan = s.plan ∧ (endDescriptor e s).transport = s.transport ∧
    (endDescriptor e s).transit = s.transit ∧ (endDescriptor e s).stations = s.stations ∧
    (endDescriptor e s).pockets = s.pockets ∧ (endDescriptor e s).sweep = s.sweep ∧
    (endDescriptor e s).retire = s.retire ∧ (endDescriptor e s).cmd = s.cmd ∧
    (endDescriptor e s).notice = s.notice := by
  simp [endDescriptor]

/-- What retireRecord leaves. -/
@[simp] theorem retireRecord_frame (d : Disposition) (s : State) :
    (retireRecord d s).pending = s.pending ∧ (retireRecord d s).resetLow = s.resetLow ∧
    (retireRecord d s).cb = s.cb ∧ (retireRecord d s).master = s.master ∧
    (retireRecord d s).backplane = s.backplane ∧ (retireRecord d s).port = s.port ∧
    (retireRecord d s).noticeReq = s.noticeReq ∧ (retireRecord d s).planReq = s.planReq ∧
    (retireRecord d s).plan = s.plan ∧ (retireRecord d s).transport = s.transport ∧
    (retireRecord d s).transit = s.transit ∧ (retireRecord d s).stations = s.stations ∧
    (retireRecord d s).pockets = s.pockets ∧ (retireRecord d s).sweep = s.sweep ∧
    (retireRecord d s).cmd = s.cmd ∧ (retireRecord d s).notice = s.notice := by
  simp [retireRecord]

/-- What batchToChain leaves. -/
@[simp] theorem batchToChain_frame (s : State) :
    (batchToChain s).pending = s.pending ∧ (batchToChain s).resetLow = s.resetLow ∧
    (batchToChain s).cb = s.cb ∧ (batchToChain s).master = s.master ∧
    (batchToChain s).backplane = s.backplane ∧ (batchToChain s).port = s.port ∧
    (batchToChain s).noticeReq = s.noticeReq ∧ (batchToChain s).planReq = s.planReq ∧
    (batchToChain s).plan = s.plan ∧ (batchToChain s).transport = s.transport ∧
    (batchToChain s).transit = s.transit ∧ (batchToChain s).stations = s.stations ∧
    (batchToChain s).pockets = s.pockets ∧ (batchToChain s).sweep = s.sweep ∧
    (batchToChain s).cmd = s.cmd ∧ (batchToChain s).notice = s.notice := by
  unfold batchToChain
  split
  · simp
  · split <;> simp

/-- What batchEnd leaves. -/
@[simp] theorem batchEnd_frame (p : PocketIx) (s : State) :
    (batchEnd p s).pending = s.pending ∧ (batchEnd p s).resetLow = s.resetLow ∧
    (batchEnd p s).cb = s.cb ∧ (batchEnd p s).master = s.master ∧
    (batchEnd p s).backplane = s.backplane ∧ (batchEnd p s).port = s.port ∧
    (batchEnd p s).planReq = s.planReq ∧ (batchEnd p s).plan = s.plan ∧
    (batchEnd p s).transport = s.transport ∧ (batchEnd p s).transit = s.transit ∧
    (batchEnd p s).stations = s.stations ∧ (batchEnd p s).pockets = s.pockets ∧
    (batchEnd p s).sweep = s.sweep ∧ (batchEnd p s).cmd = s.cmd := by
  simp [batchEnd]

/-- What closeBatch leaves. -/
@[simp] theorem closeBatch_frame (p : PocketIx) (st : PocketState) (s : State) :
    (closeBatch p st s).pending = s.pending ∧ (closeBatch p st s).resetLow = s.resetLow ∧
    (closeBatch p st s).cb = s.cb ∧ (closeBatch p st s).master = s.master ∧
    (closeBatch p st s).backplane = s.backplane ∧ (closeBatch p st s).port = s.port ∧
    (closeBatch p st s).planReq = s.planReq ∧ (closeBatch p st s).plan = s.plan ∧
    (closeBatch p st s).transport = s.transport ∧ (closeBatch p st s).transit = s.transit ∧
    (closeBatch p st s).stations = s.stations ∧ (closeBatch p st s).sweep = s.sweep ∧
    (closeBatch p st s).cmd = s.cmd := by
  simp [closeBatch]

/-- What drainIfEmpty leaves. -/
@[simp] theorem drainIfEmpty_frame (p : PocketIx) (s : State) :
    (drainIfEmpty p s).pending = s.pending ∧ (drainIfEmpty p s).resetLow = s.resetLow ∧
    (drainIfEmpty p s).cb = s.cb ∧ (drainIfEmpty p s).master = s.master ∧
    (drainIfEmpty p s).backplane = s.backplane ∧ (drainIfEmpty p s).port = s.port ∧
    (drainIfEmpty p s).planReq = s.planReq ∧ (drainIfEmpty p s).plan = s.plan ∧
    (drainIfEmpty p s).transport = s.transport ∧ (drainIfEmpty p s).transit = s.transit ∧
    (drainIfEmpty p s).stations = s.stations ∧ (drainIfEmpty p s).sweep = s.sweep ∧
    (drainIfEmpty p s).cmd = s.cmd := by
  unfold drainIfEmpty
  split
  · split <;> simp
  all_goals simp

/-- What releaseReservation leaves. -/
@[simp] theorem releaseReservation_frame (p : PocketIx) (s : State) :
    (releaseReservation p s).pending = s.pending ∧
    (releaseReservation p s).resetLow = s.resetLow ∧ (releaseReservation p s).cb = s.cb ∧
    (releaseReservation p s).master = s.master ∧
    (releaseReservation p s).backplane = s.backplane ∧ (releaseReservation p s).port = s.port ∧
    (releaseReservation p s).planReq = s.planReq ∧ (releaseReservation p s).plan = s.plan ∧
    (releaseReservation p s).transport = s.transport ∧
    (releaseReservation p s).transit = s.transit ∧
    (releaseReservation p s).stations = s.stations ∧ (releaseReservation p s).sweep = s.sweep ∧
    (releaseReservation p s).cmd = s.cmd := by
  simp [releaseReservation]

/-- What fillNotices leaves. -/
@[simp] theorem fillNotices_frame (p : PocketIx) (w : Word) (s : State) :
    (fillNotices p w s).pending = s.pending ∧ (fillNotices p w s).resetLow = s.resetLow ∧
    (fillNotices p w s).cb = s.cb ∧ (fillNotices p w s).master = s.master ∧
    (fillNotices p w s).backplane = s.backplane ∧ (fillNotices p w s).port = s.port ∧
    (fillNotices p w s).chainReq = s.chainReq ∧ (fillNotices p w s).planReq = s.planReq ∧
    (fillNotices p w s).plan = s.plan ∧ (fillNotices p w s).transport = s.transport ∧
    (fillNotices p w s).transit = s.transit ∧ (fillNotices p w s).stations = s.stations ∧
    (fillNotices p w s).pockets = s.pockets ∧ (fillNotices p w s).sweep = s.sweep ∧
    (fillNotices p w s).chain = s.chain ∧ (fillNotices p w s).retire = s.retire ∧
    (fillNotices p w s).cmd = s.cmd := by
  simp only [fillNotices]
  split <;> split <;> simp

/-- What raiseFill leaves. -/
@[simp] theorem raiseFill_frame (p : PocketIx) (w : Word) (s : State) :
    (raiseFill p w s).pending = s.pending ∧ (raiseFill p w s).resetLow = s.resetLow ∧
    (raiseFill p w s).cb = s.cb ∧ (raiseFill p w s).master = s.master ∧
    (raiseFill p w s).backplane = s.backplane ∧ (raiseFill p w s).port = s.port ∧
    (raiseFill p w s).chainReq = s.chainReq ∧ (raiseFill p w s).planReq = s.planReq ∧
    (raiseFill p w s).plan = s.plan ∧ (raiseFill p w s).transit = s.transit ∧
    (raiseFill p w s).stations = s.stations ∧ (raiseFill p w s).sweep = s.sweep ∧
    (raiseFill p w s).chain = s.chain ∧ (raiseFill p w s).retire = s.retire ∧
    (raiseFill p w s).cmd = s.cmd := by
  simp only [raiseFill]
  split
  · split <;> simp
  · simp

/-- What releaseLetter leaves. -/
@[simp] theorem releaseLetter_frame (l : Letter) (s : State) :
    (releaseLetter l s).pending = s.pending ∧ (releaseLetter l s).resetLow = s.resetLow ∧
    (releaseLetter l s).cb = s.cb ∧ (releaseLetter l s).master = s.master ∧
    (releaseLetter l s).backplane = s.backplane ∧ (releaseLetter l s).port = s.port ∧
    (releaseLetter l s).planReq = s.planReq ∧ (releaseLetter l s).plan = s.plan ∧
    (releaseLetter l s).transport = s.transport ∧ (releaseLetter l s).transit = s.transit ∧
    (releaseLetter l s).stations = s.stations ∧ (releaseLetter l s).sweep = s.sweep ∧
    (releaseLetter l s).cmd = s.cmd := by
  unfold releaseLetter
  split <;> simp

/-- What depart leaves. -/
@[simp] theorem depart_frame (o : DispositionOutcome) (l : Letter) (s : State) :
    (depart o l s).pending = s.pending ∧ (depart o l s).resetLow = s.resetLow ∧
    (depart o l s).cb = s.cb ∧ (depart o l s).master = s.master ∧
    (depart o l s).backplane = s.backplane ∧ (depart o l s).port = s.port ∧
    (depart o l s).planReq = s.planReq ∧ (depart o l s).plan = s.plan ∧
    (depart o l s).transit = s.transit ∧ (depart o l s).stations = s.stations ∧
    (depart o l s).sweep = s.sweep ∧ (depart o l s).cmd = s.cmd := by
  simp [depart]

/-- What resolveWhere leaves. -/
@[simp] theorem resolveWhere_frame (ready : Letter → Bool) (s : State) :
    (s.resolveWhere ready).pending = s.pending ∧ (s.resolveWhere ready).resetLow = s.resetLow ∧
    (s.resolveWhere ready).cb = s.cb ∧ (s.resolveWhere ready).master = s.master ∧
    (s.resolveWhere ready).backplane = s.backplane ∧ (s.resolveWhere ready).port = s.port ∧
    (s.resolveWhere ready).noticeReq = s.noticeReq ∧
    (s.resolveWhere ready).chainReq = s.chainReq ∧ (s.resolveWhere ready).planReq = s.planReq ∧
    (s.resolveWhere ready).plan = s.plan ∧ (s.resolveWhere ready).transport = s.transport ∧
    (s.resolveWhere ready).stations = s.stations ∧ (s.resolveWhere ready).sweep = s.sweep ∧
    (s.resolveWhere ready).chain = s.chain ∧ (s.resolveWhere ready).retire = s.retire ∧
    (s.resolveWhere ready).cmd = s.cmd ∧ (s.resolveWhere ready).notice = s.notice := by
  simp [State.resolveWhere]

/-- What resolveOne leaves. -/
@[simp] theorem resolveOne_frame (ready : Letter → Bool) (s : State) :
    (s.resolveOne ready).pending = s.pending ∧ (s.resolveOne ready).resetLow = s.resetLow ∧
    (s.resolveOne ready).cb = s.cb ∧ (s.resolveOne ready).master = s.master ∧
    (s.resolveOne ready).backplane = s.backplane ∧ (s.resolveOne ready).port = s.port ∧
    (s.resolveOne ready).noticeReq = s.noticeReq ∧ (s.resolveOne ready).chainReq = s.chainReq ∧
    (s.resolveOne ready).planReq = s.planReq ∧ (s.resolveOne ready).plan = s.plan ∧
    (s.resolveOne ready).transport = s.transport ∧ (s.resolveOne ready).stations = s.stations ∧
    (s.resolveOne ready).sweep = s.sweep ∧ (s.resolveOne ready).chain = s.chain ∧
    (s.resolveOne ready).retire = s.retire ∧ (s.resolveOne ready).cmd = s.cmd ∧
    (s.resolveOne ready).notice = s.notice := by
  simp [State.resolveOne]

/-- What resolveReady leaves. -/
@[simp] theorem resolveReady_frame (s : State) :
    (resolveReady s).pending = s.pending ∧ (resolveReady s).resetLow = s.resetLow ∧
    (resolveReady s).cb = s.cb ∧ (resolveReady s).master = s.master ∧
    (resolveReady s).backplane = s.backplane ∧ (resolveReady s).port = s.port ∧
    (resolveReady s).noticeReq = s.noticeReq ∧ (resolveReady s).chainReq = s.chainReq ∧
    (resolveReady s).planReq = s.planReq ∧ (resolveReady s).plan = s.plan ∧
    (resolveReady s).transport = s.transport ∧ (resolveReady s).stations = s.stations ∧
    (resolveReady s).sweep = s.sweep ∧ (resolveReady s).chain = s.chain ∧
    (resolveReady s).retire = s.retire ∧ (resolveReady s).cmd = s.cmd ∧
    (resolveReady s).notice = s.notice := by
  simp [resolveReady]

/-- What resolveAwaiting leaves. -/
@[simp] theorem resolveAwaiting_frame (s : State) :
    (resolveAwaiting s).pending = s.pending ∧ (resolveAwaiting s).resetLow = s.resetLow ∧
    (resolveAwaiting s).cb = s.cb ∧ (resolveAwaiting s).master = s.master ∧
    (resolveAwaiting s).backplane = s.backplane ∧ (resolveAwaiting s).port = s.port ∧
    (resolveAwaiting s).noticeReq = s.noticeReq ∧ (resolveAwaiting s).chainReq = s.chainReq ∧
    (resolveAwaiting s).planReq = s.planReq ∧ (resolveAwaiting s).plan = s.plan ∧
    (resolveAwaiting s).transport = s.transport ∧ (resolveAwaiting s).stations = s.stations ∧
    (resolveAwaiting s).sweep = s.sweep ∧ (resolveAwaiting s).chain = s.chain ∧
    (resolveAwaiting s).retire = s.retire ∧ (resolveAwaiting s).cmd = s.cmd ∧
    (resolveAwaiting s).notice = s.notice := by
  simp [resolveAwaiting]

/-- What changeStation leaves. -/
@[simp] theorem changeStation_frame (st : StationIx) (x : Station) (c : StationCause) (a : Word) (s : State) :
    (changeStation st x c a s).pending = s.pending ∧
    (changeStation st x c a s).resetLow = s.resetLow ∧ (changeStation st x c a s).cb = s.cb ∧
    (changeStation st x c a s).master = s.master ∧
    (changeStation st x c a s).backplane = s.backplane ∧
    (changeStation st x c a s).port = s.port ∧ (changeStation st x c a s).chainReq = s.chainReq ∧
    (changeStation st x c a s).planReq = s.planReq ∧ (changeStation st x c a s).plan = s.plan ∧
    (changeStation st x c a s).transport = s.transport ∧
    (changeStation st x c a s).transit = s.transit ∧
    (changeStation st x c a s).pockets = s.pockets ∧ (changeStation st x c a s).sweep = s.sweep ∧
    (changeStation st x c a s).chain = s.chain ∧ (changeStation st x c a s).retire = s.retire ∧
    (changeStation st x c a s).cmd = s.cmd := by
  simp [changeStation]

/-- What recordReject leaves. -/
@[simp] theorem recordReject_frame (st : StationIx) (c : RejectCause) (a : BitVec 16) (b : Word) (s : State) :
    (recordReject st c a b s).pending = s.pending ∧
    (recordReject st c a b s).resetLow = s.resetLow ∧ (recordReject st c a b s).cb = s.cb ∧
    (recordReject st c a b s).master = s.master ∧
    (recordReject st c a b s).backplane = s.backplane ∧ (recordReject st c a b s).port = s.port ∧
    (recordReject st c a b s).chainReq = s.chainReq ∧
    (recordReject st c a b s).planReq = s.planReq ∧ (recordReject st c a b s).plan = s.plan ∧
    (recordReject st c a b s).transport = s.transport ∧
    (recordReject st c a b s).transit = s.transit ∧
    (recordReject st c a b s).stations = s.stations ∧
    (recordReject st c a b s).pockets = s.pockets ∧ (recordReject st c a b s).sweep = s.sweep ∧
    (recordReject st c a b s).chain = s.chain ∧ (recordReject st c a b s).retire = s.retire ∧
    (recordReject st c a b s).cmd = s.cmd := by
  simp [recordReject]

/-- What loseLock leaves. -/
@[simp] theorem loseLock_frame (st : StationIx) (c : StationCause) (s : State) :
    (loseLock st c s).pending = s.pending ∧ (loseLock st c s).resetLow = s.resetLow ∧
    (loseLock st c s).cb = s.cb ∧ (loseLock st c s).master = s.master ∧
    (loseLock st c s).backplane = s.backplane ∧ (loseLock st c s).port = s.port ∧
    (loseLock st c s).chainReq = s.chainReq ∧ (loseLock st c s).planReq = s.planReq ∧
    (loseLock st c s).plan = s.plan ∧ (loseLock st c s).transport = s.transport ∧
    (loseLock st c s).transit = s.transit ∧ (loseLock st c s).pockets = s.pockets ∧
    (loseLock st c s).sweep = s.sweep ∧ (loseLock st c s).chain = s.chain ∧
    (loseLock st c s).retire = s.retire ∧ (loseLock st c s).cmd = s.cmd := by
  simp [loseLock]

/-- What changeLetter leaves. -/
@[simp] theorem changeLetter_frame (t : Tag) (f : Letter → Letter) (s : State) :
    (s.changeLetter t f).pending = s.pending ∧ (s.changeLetter t f).resetLow = s.resetLow ∧
    (s.changeLetter t f).cb = s.cb ∧ (s.changeLetter t f).master = s.master ∧
    (s.changeLetter t f).backplane = s.backplane ∧ (s.changeLetter t f).port = s.port ∧
    (s.changeLetter t f).noticeReq = s.noticeReq ∧ (s.changeLetter t f).chainReq = s.chainReq ∧
    (s.changeLetter t f).planReq = s.planReq ∧ (s.changeLetter t f).plan = s.plan ∧
    (s.changeLetter t f).transport = s.transport ∧ (s.changeLetter t f).stations = s.stations ∧
    (s.changeLetter t f).pockets = s.pockets ∧ (s.changeLetter t f).sweep = s.sweep ∧
    (s.changeLetter t f).chain = s.chain ∧ (s.changeLetter t f).retire = s.retire ∧
    (s.changeLetter t f).cmd = s.cmd ∧ (s.changeLetter t f).notice = s.notice := by
  simp [State.changeLetter]

/-- What deliverRead leaves. -/
@[simp] theorem deliverRead_frame (st : StationIx) (ws : List Word) (s : State) :
    (deliverRead st ws s).pending = s.pending ∧ (deliverRead st ws s).resetLow = s.resetLow ∧
    (deliverRead st ws s).cb = s.cb ∧ (deliverRead st ws s).master = s.master ∧
    (deliverRead st ws s).backplane = s.backplane ∧ (deliverRead st ws s).port = s.port ∧
    (deliverRead st ws s).noticeReq = s.noticeReq ∧ (deliverRead st ws s).chainReq = s.chainReq ∧
    (deliverRead st ws s).planReq = s.planReq ∧ (deliverRead st ws s).plan = s.plan ∧
    (deliverRead st ws s).transport = s.transport ∧ (deliverRead st ws s).stations = s.stations ∧
    (deliverRead st ws s).pockets = s.pockets ∧ (deliverRead st ws s).sweep = s.sweep ∧
    (deliverRead st ws s).chain = s.chain ∧ (deliverRead st ws s).retire = s.retire ∧
    (deliverRead st ws s).cmd = s.cmd ∧ (deliverRead st ws s).notice = s.notice := by
  unfold deliverRead
  split <;> simp

/-- What testLetter leaves. -/
@[simp] theorem testLetter_frame (t : Tag) (s : State) :
    (testLetter t s).pending = s.pending ∧ (testLetter t s).resetLow = s.resetLow ∧
    (testLetter t s).cb = s.cb ∧ (testLetter t s).master = s.master ∧
    (testLetter t s).backplane = s.backplane ∧ (testLetter t s).port = s.port ∧
    (testLetter t s).noticeReq = s.noticeReq ∧ (testLetter t s).chainReq = s.chainReq ∧
    (testLetter t s).planReq = s.planReq ∧ (testLetter t s).plan = s.plan ∧
    (testLetter t s).transport = s.transport ∧ (testLetter t s).stations = s.stations ∧
    (testLetter t s).sweep = s.sweep ∧ (testLetter t s).chain = s.chain ∧
    (testLetter t s).retire = s.retire ∧ (testLetter t s).cmd = s.cmd ∧
    (testLetter t s).notice = s.notice := by
  simp [testLetter]

/-- What reportLast leaves. -/
@[simp] theorem reportLast_frame (st : StationIx) (t : Tag) (s : State) :
    (reportLast st t s).pending = s.pending ∧ (reportLast st t s).resetLow = s.resetLow ∧
    (reportLast st t s).cb = s.cb ∧ (reportLast st t s).master = s.master ∧
    (reportLast st t s).backplane = s.backplane ∧ (reportLast st t s).port = s.port ∧
    (reportLast st t s).noticeReq = s.noticeReq ∧ (reportLast st t s).chainReq = s.chainReq ∧
    (reportLast st t s).planReq = s.planReq ∧ (reportLast st t s).plan = s.plan ∧
    (reportLast st t s).transport = s.transport ∧ (reportLast st t s).sweep = s.sweep ∧
    (reportLast st t s).chain = s.chain ∧ (reportLast st t s).retire = s.retire ∧
    (reportLast st t s).cmd = s.cmd ∧ (reportLast st t s).notice = s.notice := by
  simp [reportLast]

/-- What takeRecord leaves. -/
@[simp] theorem takeRecord_frame (st : StationIx) (ws : List Word) (s : State) :
    (takeRecord st ws s).pending = s.pending ∧ (takeRecord st ws s).resetLow = s.resetLow ∧
    (takeRecord st ws s).cb = s.cb ∧ (takeRecord st ws s).master = s.master ∧
    (takeRecord st ws s).backplane = s.backplane ∧ (takeRecord st ws s).port = s.port ∧
    (takeRecord st ws s).noticeReq = s.noticeReq ∧ (takeRecord st ws s).chainReq = s.chainReq ∧
    (takeRecord st ws s).planReq = s.planReq ∧ (takeRecord st ws s).plan = s.plan ∧
    (takeRecord st ws s).transport = s.transport ∧ (takeRecord st ws s).sweep = s.sweep ∧
    (takeRecord st ws s).chain = s.chain ∧ (takeRecord st ws s).retire = s.retire ∧
    (takeRecord st ws s).cmd = s.cmd ∧ (takeRecord st ws s).notice = s.notice := by
  simp only [takeRecord]
  split <;> simp

/-- What raiseFaultRun leaves. -/
@[simp] theorem raiseFaultRun_frame (st : StationIx) (s : State) :
    (raiseFaultRun st s).pending = s.pending ∧ (raiseFaultRun st s).resetLow = s.resetLow ∧
    (raiseFaultRun st s).cb = s.cb ∧ (raiseFaultRun st s).master = s.master ∧
    (raiseFaultRun st s).backplane = s.backplane ∧ (raiseFaultRun st s).port = s.port ∧
    (raiseFaultRun st s).chainReq = s.chainReq ∧ (raiseFaultRun st s).planReq = s.planReq ∧
    (raiseFaultRun st s).plan = s.plan ∧ (raiseFaultRun st s).transport = s.transport ∧
    (raiseFaultRun st s).transit = s.transit ∧ (raiseFaultRun st s).pockets = s.pockets ∧
    (raiseFaultRun st s).sweep = s.sweep ∧ (raiseFaultRun st s).chain = s.chain ∧
    (raiseFaultRun st s).retire = s.retire ∧ (raiseFaultRun st s).cmd = s.cmd := by
  simp only [raiseFaultRun]
  split <;> simp

/-- What rejectRecord leaves. -/
@[simp] theorem rejectRecord_frame (st : StationIx) (i : Nat) (ws : List Word) (c : RejectCause) (s : State) :
    (rejectRecord st i ws c s).pending = s.pending ∧
    (rejectRecord st i ws c s).resetLow = s.resetLow ∧ (rejectRecord st i ws c s).cb = s.cb ∧
    (rejectRecord st i ws c s).master = s.master ∧
    (rejectRecord st i ws c s).backplane = s.backplane ∧
    (rejectRecord st i ws c s).port = s.port ∧ (rejectRecord st i ws c s).chainReq = s.chainReq ∧
    (rejectRecord st i ws c s).planReq = s.planReq ∧ (rejectRecord st i ws c s).plan = s.plan ∧
    (rejectRecord st i ws c s).transport = s.transport ∧
    (rejectRecord st i ws c s).transit = s.transit ∧
    (rejectRecord st i ws c s).pockets = s.pockets ∧ (rejectRecord st i ws c s).sweep = s.sweep ∧
    (rejectRecord st i ws c s).chain = s.chain ∧ (rejectRecord st i ws c s).retire = s.retire ∧
    (rejectRecord st i ws c s).cmd = s.cmd := by
  simp only [rejectRecord]
  split <;> simp

/-- What frameGood leaves. -/
@[simp] theorem frameGood_frame (st : StationIx) (t : Tag) (s : State) :
    (frameGood st t s).pending = s.pending ∧ (frameGood st t s).resetLow = s.resetLow ∧
    (frameGood st t s).cb = s.cb ∧ (frameGood st t s).master = s.master ∧
    (frameGood st t s).backplane = s.backplane ∧ (frameGood st t s).port = s.port ∧
    (frameGood st t s).chainReq = s.chainReq ∧ (frameGood st t s).planReq = s.planReq ∧
    (frameGood st t s).plan = s.plan ∧ (frameGood st t s).transport = s.transport ∧
    (frameGood st t s).transit = s.transit ∧ (frameGood st t s).pockets = s.pockets ∧
    (frameGood st t s).sweep = s.sweep ∧ (frameGood st t s).chain = s.chain ∧
    (frameGood st t s).retire = s.retire ∧ (frameGood st t s).cmd = s.cmd := by
  unfold frameGood
  split <;> simp

/-- What completeRecord leaves. -/
@[simp] theorem completeRecord_frame (st : StationIx) (i : Nat) (ws : List Word) (s : State) :
    (completeRecord st i ws s).pending = s.pending ∧
    (completeRecord st i ws s).resetLow = s.resetLow ∧ (completeRecord st i ws s).cb = s.cb ∧
    (completeRecord st i ws s).master = s.master ∧
    (completeRecord st i ws s).backplane = s.backplane ∧
    (completeRecord st i ws s).port = s.port ∧ (completeRecord st i ws s).chainReq = s.chainReq ∧
    (completeRecord st i ws s).planReq = s.planReq ∧ (completeRecord st i ws s).plan = s.plan ∧
    (completeRecord st i ws s).transport = s.transport ∧
    (completeRecord st i ws s).sweep = s.sweep ∧ (completeRecord st i ws s).chain = s.chain ∧
    (completeRecord st i ws s).retire = s.retire ∧ (completeRecord st i ws s).cmd = s.cmd := by
  unfold completeRecord
  split <;> simp

/-- What alignReject leaves. -/
@[simp] theorem alignReject_frame (st : StationIx) (a b : Nat) (d : Word) (e : Enables) (s : State) :
    (alignReject st a b d e s).pending = s.pending ∧
    (alignReject st a b d e s).resetLow = s.resetLow ∧ (alignReject st a b d e s).cb = s.cb ∧
    (alignReject st a b d e s).master = s.master ∧
    (alignReject st a b d e s).backplane = s.backplane ∧
    (alignReject st a b d e s).port = s.port ∧ (alignReject st a b d e s).chainReq = s.chainReq ∧
    (alignReject st a b d e s).planReq = s.planReq ∧ (alignReject st a b d e s).plan = s.plan ∧
    (alignReject st a b d e s).transport = s.transport ∧
    (alignReject st a b d e s).transit = s.transit ∧
    (alignReject st a b d e s).pockets = s.pockets ∧ (alignReject st a b d e s).sweep = s.sweep ∧
    (alignReject st a b d e s).chain = s.chain ∧ (alignReject st a b d e s).retire = s.retire ∧
    (alignReject st a b d e s).cmd = s.cmd := by
  simp only [alignReject]
  split <;> simp

/-- What collectWord leaves. -/
@[simp] theorem collectWord_frame (st : StationIx) (i : Nat) (ws : List Word) (d : Word) (s : State) :
    (collectWord st i ws d s).pending = s.pending ∧
    (collectWord st i ws d s).resetLow = s.resetLow ∧ (collectWord st i ws d s).cb = s.cb ∧
    (collectWord st i ws d s).master = s.master ∧
    (collectWord st i ws d s).backplane = s.backplane ∧ (collectWord st i ws d s).port = s.port ∧
    (collectWord st i ws d s).chainReq = s.chainReq ∧
    (collectWord st i ws d s).planReq = s.planReq ∧ (collectWord st i ws d s).plan = s.plan ∧
    (collectWord st i ws d s).transport = s.transport ∧
    (collectWord st i ws d s).sweep = s.sweep ∧ (collectWord st i ws d s).chain = s.chain ∧
    (collectWord st i ws d s).retire = s.retire ∧ (collectWord st i ws d s).cmd = s.cmd := by
  unfold collectWord
  split <;> simp

/-- What assembleWord leaves. -/
@[simp] theorem assembleWord_frame (st : StationIx) (o : Nat) (d : Word) (e : Enables) (s : State) :
    (assembleWord st o d e s).pending = s.pending ∧
    (assembleWord st o d e s).resetLow = s.resetLow ∧ (assembleWord st o d e s).cb = s.cb ∧
    (assembleWord st o d e s).master = s.master ∧
    (assembleWord st o d e s).backplane = s.backplane ∧ (assembleWord st o d e s).port = s.port ∧
    (assembleWord st o d e s).chainReq = s.chainReq ∧
    (assembleWord st o d e s).planReq = s.planReq ∧ (assembleWord st o d e s).plan = s.plan ∧
    (assembleWord st o d e s).transport = s.transport ∧
    (assembleWord st o d e s).sweep = s.sweep ∧ (assembleWord st o d e s).chain = s.chain ∧
    (assembleWord st o d e s).retire = s.retire ∧ (assembleWord st o d e s).cmd = s.cmd := by
  unfold assembleWord
  split
  · simp
  · split <;> simp

/-- What stationSnoop leaves. -/
@[simp] theorem stationSnoop_frame (st : StationIx) (o : Nat) (d : Word) (e : Enables) (s : State) :
    (stationSnoop st o d e s).pending = s.pending ∧
    (stationSnoop st o d e s).resetLow = s.resetLow ∧ (stationSnoop st o d e s).cb = s.cb ∧
    (stationSnoop st o d e s).master = s.master ∧
    (stationSnoop st o d e s).backplane = s.backplane ∧ (stationSnoop st o d e s).port = s.port ∧
    (stationSnoop st o d e s).chainReq = s.chainReq ∧
    (stationSnoop st o d e s).planReq = s.planReq ∧ (stationSnoop st o d e s).plan = s.plan ∧
    (stationSnoop st o d e s).transport = s.transport ∧
    (stationSnoop st o d e s).sweep = s.sweep ∧ (stationSnoop st o d e s).chain = s.chain ∧
    (stationSnoop st o d e s).retire = s.retire ∧ (stationSnoop st o d e s).cmd = s.cmd := by
  unfold stationSnoop
  split <;> simp

/-- What disableStation leaves. -/
@[simp] theorem disableStation_frame (st : StationIx) (s : State) :
    (disableStation st s).pending = s.pending ∧ (disableStation st s).resetLow = s.resetLow ∧
    (disableStation st s).cb = s.cb ∧ (disableStation st s).master = s.master ∧
    (disableStation st s).backplane = s.backplane ∧ (disableStation st s).port = s.port ∧
    (disableStation st s).chainReq = s.chainReq ∧ (disableStation st s).planReq = s.planReq ∧
    (disableStation st s).plan = s.plan ∧ (disableStation st s).transport = s.transport ∧
    (disableStation st s).sweep = s.sweep ∧ (disableStation st s).chain = s.chain ∧
    (disableStation st s).retire = s.retire ∧ (disableStation st s).cmd = s.cmd := by
  unfold disableStation testIfExpected
  split <;> simp

/-- What huntStation leaves. -/
@[simp] theorem huntStation_frame (st : StationIx) (c : StationCause) (s : State) :
    (huntStation st c s).pending = s.pending ∧ (huntStation st c s).resetLow = s.resetLow ∧
    (huntStation st c s).cb = s.cb ∧ (huntStation st c s).master = s.master ∧
    (huntStation st c s).backplane = s.backplane ∧ (huntStation st c s).port = s.port ∧
    (huntStation st c s).chainReq = s.chainReq ∧ (huntStation st c s).planReq = s.planReq ∧
    (huntStation st c s).plan = s.plan ∧ (huntStation st c s).transport = s.transport ∧
    (huntStation st c s).sweep = s.sweep ∧ (huntStation st c s).chain = s.chain ∧
    (huntStation st c s).retire = s.retire ∧ (huntStation st c s).cmd = s.cmd := by
  simp [huntStation]

/-- What expireLost leaves. -/
@[simp] theorem expireLost_frame (l : Letter) (rest : List Letter) (s : State) :
    (expireLost l rest s).pending = s.pending ∧ (expireLost l rest s).resetLow = s.resetLow ∧
    (expireLost l rest s).cb = s.cb ∧ (expireLost l rest s).master = s.master ∧
    (expireLost l rest s).backplane = s.backplane ∧ (expireLost l rest s).port = s.port ∧
    (expireLost l rest s).planReq = s.planReq ∧ (expireLost l rest s).plan = s.plan ∧
    (expireLost l rest s).stations = s.stations ∧ (expireLost l rest s).sweep = s.sweep ∧
    (expireLost l rest s).cmd = s.cmd := by
  simp [expireLost]

/-- What countMiss leaves. -/
@[simp] theorem countMiss_frame (l : Letter) (st : StationIx) (s : State) :
    (countMiss l s st).pending = s.pending ∧ (countMiss l s st).resetLow = s.resetLow ∧
    (countMiss l s st).cb = s.cb ∧ (countMiss l s st).master = s.master ∧
    (countMiss l s st).backplane = s.backplane ∧ (countMiss l s st).port = s.port ∧
    (countMiss l s st).chainReq = s.chainReq ∧ (countMiss l s st).planReq = s.planReq ∧
    (countMiss l s st).plan = s.plan ∧ (countMiss l s st).transport = s.transport ∧
    (countMiss l s st).transit = s.transit ∧ (countMiss l s st).pockets = s.pockets ∧
    (countMiss l s st).sweep = s.sweep ∧ (countMiss l s st).chain = s.chain ∧
    (countMiss l s st).retire = s.retire ∧ (countMiss l s st).cmd = s.cmd := by
  simp only [countMiss]
  split
  · split <;> simp
  · simp

/-- What countMisses leaves. -/
@[simp] theorem countMisses_frame (l : Letter) (s : State) :
    (countMisses l s).pending = s.pending ∧ (countMisses l s).resetLow = s.resetLow ∧
    (countMisses l s).cb = s.cb ∧ (countMisses l s).master = s.master ∧
    (countMisses l s).backplane = s.backplane ∧ (countMisses l s).port = s.port ∧
    (countMisses l s).chainReq = s.chainReq ∧ (countMisses l s).planReq = s.planReq ∧
    (countMisses l s).plan = s.plan ∧ (countMisses l s).transport = s.transport ∧
    (countMisses l s).transit = s.transit ∧ (countMisses l s).pockets = s.pockets ∧
    (countMisses l s).sweep = s.sweep ∧ (countMisses l s).chain = s.chain ∧
    (countMisses l s).retire = s.retire ∧ (countMisses l s).cmd = s.cmd := by
  simp [countMisses, allStations]

/-- What expireDecide leaves. -/
@[simp] theorem expireDecide_frame (l : Letter) (s : State) :
    (expireDecide l s).pending = s.pending ∧ (expireDecide l s).resetLow = s.resetLow ∧
    (expireDecide l s).cb = s.cb ∧ (expireDecide l s).master = s.master ∧
    (expireDecide l s).backplane = s.backplane ∧ (expireDecide l s).port = s.port ∧
    (expireDecide l s).chainReq = s.chainReq ∧ (expireDecide l s).planReq = s.planReq ∧
    (expireDecide l s).plan = s.plan ∧ (expireDecide l s).transport = s.transport ∧
    (expireDecide l s).sweep = s.sweep ∧ (expireDecide l s).chain = s.chain ∧
    (expireDecide l s).retire = s.retire ∧ (expireDecide l s).cmd = s.cmd := by
  simp only [expireDecide]
  split <;> simp

/-- What decideDue leaves. -/
@[simp] theorem decideDue_frame (s : State) :
    (decideDue s).pending = s.pending ∧ (decideDue s).resetLow = s.resetLow ∧
    (decideDue s).cb = s.cb ∧ (decideDue s).master = s.master ∧
    (decideDue s).backplane = s.backplane ∧ (decideDue s).port = s.port ∧
    (decideDue s).chainReq = s.chainReq ∧ (decideDue s).planReq = s.planReq ∧
    (decideDue s).plan = s.plan ∧ (decideDue s).transport = s.transport ∧
    (decideDue s).sweep = s.sweep ∧ (decideDue s).chain = s.chain ∧
    (decideDue s).retire = s.retire ∧ (decideDue s).cmd = s.cmd := by
  unfold decideDue
  split
  · split <;> simp
  · simp

/-- What stallExpired leaves. -/
@[simp] theorem stallExpired_frame (s : State) :
    (stallExpired s).pending = s.pending ∧ (stallExpired s).resetLow = s.resetLow ∧
    (stallExpired s).cb = s.cb ∧ (stallExpired s).master = s.master ∧
    (stallExpired s).backplane = s.backplane ∧ (stallExpired s).port = s.port ∧
    (stallExpired s).chainReq = s.chainReq ∧ (stallExpired s).planReq = s.planReq ∧
    (stallExpired s).plan = s.plan ∧ (stallExpired s).transit = s.transit ∧
    (stallExpired s).stations = s.stations ∧ (stallExpired s).pockets = s.pockets ∧
    (stallExpired s).sweep = s.sweep ∧ (stallExpired s).chain = s.chain ∧
    (stallExpired s).retire = s.retire ∧ (stallExpired s).cmd = s.cmd := by
  simp [stallExpired]

/-- What stopLine leaves. -/
@[simp] theorem stopLine_frame (s : State) :
    (stopLine s).pending = s.pending ∧ (stopLine s).resetLow = s.resetLow ∧
    (stopLine s).cb = s.cb ∧ (stopLine s).master = s.master ∧
    (stopLine s).backplane = s.backplane ∧ (stopLine s).port = s.port ∧
    (stopLine s).chainReq = s.chainReq ∧ (stopLine s).planReq = s.planReq ∧
    (stopLine s).plan = s.plan ∧ (stopLine s).transit = s.transit ∧
    (stopLine s).stations = s.stations ∧ (stopLine s).pockets = s.pockets ∧
    (stopLine s).sweep = s.sweep ∧ (stopLine s).chain = s.chain ∧
    (stopLine s).retire = s.retire ∧ (stopLine s).cmd = s.cmd := by
  simp [stopLine]

/-- What startLine leaves. -/
@[simp] theorem startLine_frame (s : State) :
    (startLine s).pending = s.pending ∧ (startLine s).resetLow = s.resetLow ∧
    (startLine s).cb = s.cb ∧ (startLine s).master = s.master ∧
    (startLine s).backplane = s.backplane ∧ (startLine s).port = s.port ∧
    (startLine s).chainReq = s.chainReq ∧ (startLine s).planReq = s.planReq ∧
    (startLine s).plan = s.plan ∧ (startLine s).transit = s.transit ∧
    (startLine s).stations = s.stations ∧ (startLine s).pockets = s.pockets ∧
    (startLine s).chain = s.chain ∧ (startLine s).retire = s.retire := by
  simp [startLine]

/-- What framingNotice leaves. -/
@[simp] theorem framingNotice_frame (c : FramingBreak) (i : Nat) (h : Option Nat) (s : State) :
    (framingNotice c i h s).pending = s.pending ∧ (framingNotice c i h s).resetLow = s.resetLow ∧
    (framingNotice c i h s).cb = s.cb ∧ (framingNotice c i h s).master = s.master ∧
    (framingNotice c i h s).backplane = s.backplane ∧ (framingNotice c i h s).port = s.port ∧
    (framingNotice c i h s).chainReq = s.chainReq ∧ (framingNotice c i h s).planReq = s.planReq ∧
    (framingNotice c i h s).plan = s.plan ∧ (framingNotice c i h s).transport = s.transport ∧
    (framingNotice c i h s).transit = s.transit ∧ (framingNotice c i h s).stations = s.stations ∧
    (framingNotice c i h s).pockets = s.pockets ∧ (framingNotice c i h s).sweep = s.sweep ∧
    (framingNotice c i h s).chain = s.chain ∧ (framingNotice c i h s).retire = s.retire ∧
    (framingNotice c i h s).cmd = s.cmd := by
  simp [framingNotice]

/-- What restartStallIfFirst leaves. -/
@[simp] theorem restartStallIfFirst_frame (s : State) :
    (restartStallIfFirst s).pending = s.pending ∧ (restartStallIfFirst s).resetLow = s.resetLow ∧
    (restartStallIfFirst s).cb = s.cb ∧ (restartStallIfFirst s).master = s.master ∧
    (restartStallIfFirst s).backplane = s.backplane ∧ (restartStallIfFirst s).port = s.port ∧
    (restartStallIfFirst s).noticeReq = s.noticeReq ∧
    (restartStallIfFirst s).chainReq = s.chainReq ∧ (restartStallIfFirst s).planReq = s.planReq ∧
    (restartStallIfFirst s).plan = s.plan ∧ (restartStallIfFirst s).transit = s.transit ∧
    (restartStallIfFirst s).stations = s.stations ∧ (restartStallIfFirst s).pockets = s.pockets ∧
    (restartStallIfFirst s).sweep = s.sweep ∧ (restartStallIfFirst s).chain = s.chain ∧
    (restartStallIfFirst s).retire = s.retire ∧ (restartStallIfFirst s).cmd = s.cmd ∧
    (restartStallIfFirst s).notice = s.notice := by
  unfold restartStallIfFirst
  split <;> simp

/-- What takeEntry leaves. -/
@[simp] theorem takeEntry_frame (e : Entry) (s : State) :
    (takeEntry e s).pending = s.pending ∧ (takeEntry e s).resetLow = s.resetLow ∧
    (takeEntry e s).cb = s.cb ∧ (takeEntry e s).master = s.master ∧
    (takeEntry e s).backplane = s.backplane ∧ (takeEntry e s).port = s.port ∧
    (takeEntry e s).chainReq = s.chainReq ∧ (takeEntry e s).planReq = s.planReq ∧
    (takeEntry e s).plan = s.plan ∧ (takeEntry e s).stations = s.stations ∧
    (takeEntry e s).pockets = s.pockets ∧ (takeEntry e s).sweep = s.sweep ∧
    (takeEntry e s).chain = s.chain ∧ (takeEntry e s).retire = s.retire ∧
    (takeEntry e s).cmd = s.cmd := by
  simp [takeEntry]

/-- What completeEntry leaves. -/
@[simp] theorem completeEntry_frame (a b : Word) (s : State) :
    (completeEntry a b s).pending = s.pending ∧ (completeEntry a b s).resetLow = s.resetLow ∧
    (completeEntry a b s).cb = s.cb ∧ (completeEntry a b s).master = s.master ∧
    (completeEntry a b s).backplane = s.backplane ∧ (completeEntry a b s).port = s.port ∧
    (completeEntry a b s).chainReq = s.chainReq ∧ (completeEntry a b s).planReq = s.planReq ∧
    (completeEntry a b s).plan = s.plan ∧ (completeEntry a b s).stations = s.stations ∧
    (completeEntry a b s).pockets = s.pockets ∧ (completeEntry a b s).sweep = s.sweep ∧
    (completeEntry a b s).chain = s.chain ∧ (completeEntry a b s).retire = s.retire ∧
    (completeEntry a b s).cmd = s.cmd := by
  unfold completeEntry
  split <;> simp

/-- What inductionSnoop leaves. -/
@[simp] theorem inductionSnoop_frame (o : Nat) (d : Word) (e : Enables) (s : State) :
    (inductionSnoop o d e s).pending = s.pending ∧
    (inductionSnoop o d e s).resetLow = s.resetLow ∧ (inductionSnoop o d e s).cb = s.cb ∧
    (inductionSnoop o d e s).master = s.master ∧
    (inductionSnoop o d e s).backplane = s.backplane ∧ (inductionSnoop o d e s).port = s.port ∧
    (inductionSnoop o d e s).chainReq = s.chainReq ∧
    (inductionSnoop o d e s).planReq = s.planReq ∧ (inductionSnoop o d e s).plan = s.plan ∧
    (inductionSnoop o d e s).stations = s.stations ∧
    (inductionSnoop o d e s).pockets = s.pockets ∧ (inductionSnoop o d e s).sweep = s.sweep ∧
    (inductionSnoop o d e s).chain = s.chain ∧ (inductionSnoop o d e s).retire = s.retire ∧
    (inductionSnoop o d e s).cmd = s.cmd := by
  simp only [inductionSnoop]
  split
  case h_5 => split <;> simp
  all_goals simp

/-- What removeLetter leaves. -/
@[simp] theorem removeLetter_frame (slot : BitVec 8) (s : State) :
    (removeLetter slot s).pending = s.pending ∧ (removeLetter slot s).resetLow = s.resetLow ∧
    (removeLetter slot s).cb = s.cb ∧ (removeLetter slot s).master = s.master ∧
    (removeLetter slot s).backplane = s.backplane ∧ (removeLetter slot s).port = s.port ∧
    (removeLetter slot s).noticeReq = s.noticeReq ∧ (removeLetter slot s).chainReq = s.chainReq ∧
    (removeLetter slot s).planReq = s.planReq ∧ (removeLetter slot s).plan = s.plan ∧
    (removeLetter slot s).transport = s.transport ∧ (removeLetter slot s).stations = s.stations ∧
    (removeLetter slot s).pockets = s.pockets ∧ (removeLetter slot s).sweep = s.sweep ∧
    (removeLetter slot s).chain = s.chain ∧ (removeLetter slot s).retire = s.retire ∧
    (removeLetter slot s).cmd = s.cmd ∧ (removeLetter slot s).notice = s.notice := by
  simp [removeLetter]

/-- What dispatchLetter leaves. -/
@[simp] theorem dispatchLetter_frame (slot : BitVec 8) (l : Letter) (s : State) :
    (dispatchLetter slot l s).pending = s.pending ∧
    (dispatchLetter slot l s).resetLow = s.resetLow ∧ (dispatchLetter slot l s).cb = s.cb ∧
    (dispatchLetter slot l s).master = s.master ∧
    (dispatchLetter slot l s).backplane = s.backplane ∧ (dispatchLetter slot l s).port = s.port ∧
    (dispatchLetter slot l s).planReq = s.planReq ∧ (dispatchLetter slot l s).plan = s.plan ∧
    (dispatchLetter slot l s).stations = s.stations ∧ (dispatchLetter slot l s).sweep = s.sweep ∧
    (dispatchLetter slot l s).cmd = s.cmd := by
  unfold dispatchLetter
  split <;> simp

/-- What dispatch leaves. -/
@[simp] theorem dispatch_frame (slot : BitVec 8) (m : MasterNo) (s : State) :
    (dispatch slot m s).pending = s.pending ∧ (dispatch slot m s).resetLow = s.resetLow ∧
    (dispatch slot m s).cb = s.cb ∧ (dispatch slot m s).master = s.master ∧
    (dispatch slot m s).backplane = s.backplane ∧ (dispatch slot m s).port = s.port ∧
    (dispatch slot m s).planReq = s.planReq ∧ (dispatch slot m s).plan = s.plan ∧
    (dispatch slot m s).stations = s.stations ∧ (dispatch slot m s).sweep = s.sweep ∧
    (dispatch slot m s).cmd = s.cmd := by
  unfold dispatch
  split <;> simp [dispatchUntracked, untrackedNotice]

/-- What attnAtEntry leaves. -/
@[simp] theorem attnAtEntry_frame (s : State) :
    (attnAtEntry s).pending = s.pending ∧ (attnAtEntry s).resetLow = s.resetLow ∧
    (attnAtEntry s).cb = s.cb ∧ (attnAtEntry s).master = s.master ∧
    (attnAtEntry s).backplane = s.backplane ∧ (attnAtEntry s).port = s.port ∧
    (attnAtEntry s).noticeReq = s.noticeReq ∧ (attnAtEntry s).chainReq = s.chainReq ∧
    (attnAtEntry s).planReq = s.planReq ∧ (attnAtEntry s).plan = s.plan ∧
    (attnAtEntry s).transport = s.transport ∧ (attnAtEntry s).transit = s.transit ∧
    (attnAtEntry s).stations = s.stations ∧ (attnAtEntry s).pockets = s.pockets ∧
    (attnAtEntry s).sweep = s.sweep ∧ (attnAtEntry s).chain = s.chain ∧
    (attnAtEntry s).retire = s.retire ∧ (attnAtEntry s).cmd = s.cmd := by
  unfold attnAtEntry
  split
  · simp
  · split <;> simp

/-- What attnAtConsumer leaves. -/
@[simp] theorem attnAtConsumer_frame (s : State) :
    (attnAtConsumer s).pending = s.pending ∧ (attnAtConsumer s).resetLow = s.resetLow ∧
    (attnAtConsumer s).cb = s.cb ∧ (attnAtConsumer s).master = s.master ∧
    (attnAtConsumer s).backplane = s.backplane ∧ (attnAtConsumer s).port = s.port ∧
    (attnAtConsumer s).noticeReq = s.noticeReq ∧ (attnAtConsumer s).chainReq = s.chainReq ∧
    (attnAtConsumer s).planReq = s.planReq ∧ (attnAtConsumer s).plan = s.plan ∧
    (attnAtConsumer s).transport = s.transport ∧ (attnAtConsumer s).transit = s.transit ∧
    (attnAtConsumer s).stations = s.stations ∧ (attnAtConsumer s).pockets = s.pockets ∧
    (attnAtConsumer s).sweep = s.sweep ∧ (attnAtConsumer s).chain = s.chain ∧
    (attnAtConsumer s).retire = s.retire ∧ (attnAtConsumer s).cmd = s.cmd := by
  unfold attnAtConsumer
  split <;> simp

/-- What takeAttnMode leaves. -/
@[simp] theorem takeAttnMode_frame (m : AttnMode) (s : State) :
    (takeAttnMode m s).pending = s.pending ∧ (takeAttnMode m s).resetLow = s.resetLow ∧
    (takeAttnMode m s).cb = s.cb ∧ (takeAttnMode m s).master = s.master ∧
    (takeAttnMode m s).backplane = s.backplane ∧ (takeAttnMode m s).port = s.port ∧
    (takeAttnMode m s).noticeReq = s.noticeReq ∧ (takeAttnMode m s).chainReq = s.chainReq ∧
    (takeAttnMode m s).planReq = s.planReq ∧ (takeAttnMode m s).plan = s.plan ∧
    (takeAttnMode m s).transport = s.transport ∧ (takeAttnMode m s).transit = s.transit ∧
    (takeAttnMode m s).stations = s.stations ∧ (takeAttnMode m s).pockets = s.pockets ∧
    (takeAttnMode m s).sweep = s.sweep ∧ (takeAttnMode m s).chain = s.chain ∧
    (takeAttnMode m s).retire = s.retire ∧ (takeAttnMode m s).cmd = s.cmd := by
  cases m <;> simp [takeAttnMode]

/-- What entryAccepted leaves. -/
@[simp] theorem entryAccepted_frame (s : State) :
    (entryAccepted s).pending = s.pending ∧ (entryAccepted s).resetLow = s.resetLow ∧
    (entryAccepted s).cb = s.cb ∧ (entryAccepted s).master = s.master ∧
    (entryAccepted s).backplane = s.backplane ∧ (entryAccepted s).port = s.port ∧
    (entryAccepted s).chainReq = s.chainReq ∧ (entryAccepted s).planReq = s.planReq ∧
    (entryAccepted s).plan = s.plan ∧ (entryAccepted s).transport = s.transport ∧
    (entryAccepted s).transit = s.transit ∧ (entryAccepted s).stations = s.stations ∧
    (entryAccepted s).pockets = s.pockets ∧ (entryAccepted s).sweep = s.sweep ∧
    (entryAccepted s).chain = s.chain ∧ (entryAccepted s).retire = s.retire ∧
    (entryAccepted s).cmd = s.cmd := by
  simp [entryAccepted]

/-- What noticeWordAccepted leaves. -/
@[simp] theorem noticeWordAccepted_frame (s : State) :
    (noticeWordAccepted s).pending = s.pending ∧ (noticeWordAccepted s).resetLow = s.resetLow ∧
    (noticeWordAccepted s).cb = s.cb ∧ (noticeWordAccepted s).master = s.master ∧
    (noticeWordAccepted s).backplane = s.backplane ∧ (noticeWordAccepted s).port = s.port ∧
    (noticeWordAccepted s).chainReq = s.chainReq ∧ (noticeWordAccepted s).planReq = s.planReq ∧
    (noticeWordAccepted s).plan = s.plan ∧ (noticeWordAccepted s).transport = s.transport ∧
    (noticeWordAccepted s).transit = s.transit ∧ (noticeWordAccepted s).stations = s.stations ∧
    (noticeWordAccepted s).pockets = s.pockets ∧ (noticeWordAccepted s).sweep = s.sweep ∧
    (noticeWordAccepted s).chain = s.chain ∧ (noticeWordAccepted s).retire = s.retire ∧
    (noticeWordAccepted s).cmd = s.cmd := by
  unfold noticeWordAccepted
  split
  · split <;> simp
  · simp

/-- What faultRing leaves. -/
@[simp] theorem faultRing_frame (a : Word) (s : State) :
    (faultRing a s).pending = s.pending ∧ (faultRing a s).resetLow = s.resetLow ∧
    (faultRing a s).cb = s.cb ∧ (faultRing a s).master = s.master ∧
    (faultRing a s).backplane = s.backplane ∧ (faultRing a s).port = s.port ∧
    (faultRing a s).chainReq = s.chainReq ∧ (faultRing a s).planReq = s.planReq ∧
    (faultRing a s).plan = s.plan ∧ (faultRing a s).transport = s.transport ∧
    (faultRing a s).transit = s.transit ∧ (faultRing a s).stations = s.stations ∧
    (faultRing a s).pockets = s.pockets ∧ (faultRing a s).sweep = s.sweep ∧
    (faultRing a s).chain = s.chain ∧ (faultRing a s).retire = s.retire ∧
    (faultRing a s).cmd = s.cmd := by
  simp [faultRing]

/-- What abandonNoticeWrite leaves, and what it writes. -/
@[simp] theorem abandonNoticeWrite_frame (s : State) :
    (abandonNoticeWrite s).pending = s.pending ∧ (abandonNoticeWrite s).resetLow = s.resetLow ∧
    (abandonNoticeWrite s).cb = s.cb ∧ (abandonNoticeWrite s).master = s.master ∧
    (abandonNoticeWrite s).backplane = s.backplane ∧
    (abandonNoticeWrite s).chainReq = s.chainReq ∧ (abandonNoticeWrite s).planReq = s.planReq ∧
    (abandonNoticeWrite s).plan = s.plan ∧ (abandonNoticeWrite s).transport = s.transport ∧
    (abandonNoticeWrite s).transit = s.transit ∧ (abandonNoticeWrite s).stations = s.stations ∧
    (abandonNoticeWrite s).pockets = s.pockets ∧ (abandonNoticeWrite s).sweep = s.sweep ∧
    (abandonNoticeWrite s).chain = s.chain ∧ (abandonNoticeWrite s).retire = s.retire ∧
    (abandonNoticeWrite s).cmd = s.cmd := by
  simp [abandonNoticeWrite]

@[simp] theorem abandonNoticeWrite_written (s : State) :
    (abandonNoticeWrite s).noticeReq = .reset ∧
    (abandonNoticeWrite s).port = s.port.map (Granted.abandonedBy .notice) ∧
    (abandonNoticeWrite s).notice = { s.notice with writing := none } := ⟨rfl, rfl, rfl⟩

/-- What stopIfFull leaves. -/
@[simp] theorem stopIfFull_frame (s : State) :
    (stopIfFull s).pending = s.pending ∧ (stopIfFull s).resetLow = s.resetLow ∧
    (stopIfFull s).cb = s.cb ∧ (stopIfFull s).master = s.master ∧
    (stopIfFull s).backplane = s.backplane ∧ (stopIfFull s).chainReq = s.chainReq ∧
    (stopIfFull s).planReq = s.planReq ∧ (stopIfFull s).plan = s.plan ∧
    (stopIfFull s).transport = s.transport ∧ (stopIfFull s).transit = s.transit ∧
    (stopIfFull s).stations = s.stations ∧ (stopIfFull s).pockets = s.pockets ∧
    (stopIfFull s).sweep = s.sweep ∧ (stopIfFull s).chain = s.chain ∧
    (stopIfFull s).retire = s.retire ∧ (stopIfFull s).cmd = s.cmd := by
  unfold stopIfFull
  split <;> simp

/-- A write in progress goes on where the ring has room, and is abandoned where it has none. -/
theorem stopIfFull_eq (s : State) : stopIfFull s =
    if s.ringRoom = false ∧ s.notice.writing ≠ none then abandonNoticeWrite s else s := by
  unfold stopIfFull
  cases s.ringRoom <;> cases s.notice.writing <;> rfl

/-- Once a full ring has stopped the writing, a write in progress has room. -/
theorem stopIfFull_room {s : State} (h : (stopIfFull s).notice.writing ≠ none) :
    (stopIfFull s).ringRoom = true := by
  rw [stopIfFull_eq] at h ⊢
  split at h
  · simp at h
  · rename_i hc
    rw [if_neg hc]
    cases hr : s.ringRoom
    · exact absurd ⟨hr, h⟩ hc
    · rfl

/-- What consumerSnoop leaves. -/
@[simp] theorem consumerSnoop_frame (d : Word) (e : Enables) (s : State) :
    (consumerSnoop d e s).pending = s.pending ∧ (consumerSnoop d e s).resetLow = s.resetLow ∧
    (consumerSnoop d e s).cb = s.cb ∧ (consumerSnoop d e s).master = s.master ∧
    (consumerSnoop d e s).backplane = s.backplane ∧
    (consumerSnoop d e s).chainReq = s.chainReq ∧ (consumerSnoop d e s).planReq = s.planReq ∧
    (consumerSnoop d e s).plan = s.plan ∧ (consumerSnoop d e s).transport = s.transport ∧
    (consumerSnoop d e s).transit = s.transit ∧ (consumerSnoop d e s).stations = s.stations ∧
    (consumerSnoop d e s).pockets = s.pockets ∧ (consumerSnoop d e s).sweep = s.sweep ∧
    (consumerSnoop d e s).chain = s.chain ∧ (consumerSnoop d e s).retire = s.retire ∧
    (consumerSnoop d e s).cmd = s.cmd := by
  unfold consumerSnoop
  split <;> simp

/-- What applyNoticeRing leaves. -/
@[simp] theorem applyNoticeRing_frame (s : State) :
    (applyNoticeRing s).pending = s.pending ∧ (applyNoticeRing s).resetLow = s.resetLow ∧
    (applyNoticeRing s).cb = s.cb ∧ (applyNoticeRing s).master = s.master ∧
    (applyNoticeRing s).backplane = s.backplane ∧ (applyNoticeRing s).chainReq = s.chainReq ∧
    (applyNoticeRing s).planReq = s.planReq ∧ (applyNoticeRing s).plan = s.plan ∧
    (applyNoticeRing s).transport = s.transport ∧ (applyNoticeRing s).transit = s.transit ∧
    (applyNoticeRing s).stations = s.stations ∧ (applyNoticeRing s).pockets = s.pockets ∧
    (applyNoticeRing s).sweep = s.sweep ∧ (applyNoticeRing s).chain = s.chain ∧
    (applyNoticeRing s).retire = s.retire ∧ (applyNoticeRing s).cmd = s.cmd := by
  simp only [applyNoticeRing, attnAtLayout]
  split <;> simp

/-- What readPlanWord leaves. -/
@[simp] theorem readPlanWord_frame (ld : Load) (s : State) :
    (readPlanWord ld s).pending = s.pending ∧ (readPlanWord ld s).resetLow = s.resetLow ∧
    (readPlanWord ld s).cb = s.cb ∧ (readPlanWord ld s).master = s.master ∧
    (readPlanWord ld s).backplane = s.backplane ∧ (readPlanWord ld s).port = s.port ∧
    (readPlanWord ld s).noticeReq = s.noticeReq ∧ (readPlanWord ld s).chainReq = s.chainReq ∧
    (readPlanWord ld s).transport = s.transport ∧ (readPlanWord ld s).transit = s.transit ∧
    (readPlanWord ld s).stations = s.stations ∧ (readPlanWord ld s).pockets = s.pockets ∧
    (readPlanWord ld s).sweep = s.sweep ∧ (readPlanWord ld s).chain = s.chain ∧
    (readPlanWord ld s).retire = s.retire ∧ (readPlanWord ld s).cmd = s.cmd ∧
    (readPlanWord ld s).notice = s.notice := by
  simp [readPlanWord]

/-- What ackLoad leaves. -/
@[simp] theorem ackLoad_frame (r : ResultCode) (c : Option LoadCause) (k : Bool) (a : Word) (s : State) :
    (ackLoad r c k a s).pending = s.pending ∧ (ackLoad r c k a s).resetLow = s.resetLow ∧
    (ackLoad r c k a s).cb = s.cb ∧ (ackLoad r c k a s).master = s.master ∧
    (ackLoad r c k a s).backplane = s.backplane ∧ (ackLoad r c k a s).port = s.port ∧
    (ackLoad r c k a s).chainReq = s.chainReq ∧ (ackLoad r c k a s).planReq = s.planReq ∧
    (ackLoad r c k a s).plan = s.plan ∧ (ackLoad r c k a s).transport = s.transport ∧
    (ackLoad r c k a s).transit = s.transit ∧ (ackLoad r c k a s).stations = s.stations ∧
    (ackLoad r c k a s).pockets = s.pockets ∧ (ackLoad r c k a s).sweep = s.sweep ∧
    (ackLoad r c k a s).chain = s.chain ∧ (ackLoad r c k a s).retire = s.retire := by
  simp [ackLoad]

/-- What failLoad leaves. -/
@[simp] theorem failLoad_frame (ld : Load) (c : LoadCause) (d : Word) (s : State) :
    (failLoad ld c d s).pending = s.pending ∧ (failLoad ld c d s).resetLow = s.resetLow ∧
    (failLoad ld c d s).cb = s.cb ∧ (failLoad ld c d s).master = s.master ∧
    (failLoad ld c d s).backplane = s.backplane ∧ (failLoad ld c d s).port = s.port ∧
    (failLoad ld c d s).chainReq = s.chainReq ∧ (failLoad ld c d s).planReq = s.planReq ∧
    (failLoad ld c d s).transport = s.transport ∧ (failLoad ld c d s).stations = s.stations ∧
    (failLoad ld c d s).sweep = s.sweep ∧ (failLoad ld c d s).chain = s.chain ∧
    (failLoad ld c d s).retire = s.retire := by
  simp [failLoad]

/-- What handOver leaves. -/
@[simp] theorem handOver_frame (p : Params) (rs : List Rule) (s : State) :
    (handOver p rs s).pending = s.pending ∧ (handOver p rs s).resetLow = s.resetLow ∧
    (handOver p rs s).cb = s.cb ∧ (handOver p rs s).master = s.master ∧
    (handOver p rs s).backplane = s.backplane ∧ (handOver p rs s).port = s.port ∧
    (handOver p rs s).noticeReq = s.noticeReq ∧ (handOver p rs s).chainReq = s.chainReq ∧
    (handOver p rs s).planReq = s.planReq ∧ (handOver p rs s).transport = s.transport ∧
    (handOver p rs s).transit = s.transit ∧ (handOver p rs s).stations = s.stations ∧
    (handOver p rs s).pockets = s.pockets ∧ (handOver p rs s).sweep = s.sweep ∧
    (handOver p rs s).chain = s.chain ∧ (handOver p rs s).retire = s.retire ∧
    (handOver p rs s).cmd = s.cmd := by
  simp [handOver]

end Sys2Proof.Machine
end

