-- ==== Sys2Proof/Laws/CommandFrames.lean ====
section
/-! SUPPORT. One lemma for each larger operation, up to a whole command's own effect: the fields of the state that it cannot change. -/

namespace Sys2Proof.Machine

/-- What endStall leaves. -/
@[simp] theorem endStall_frame (s : State) :
    (endStall s).pending = s.pending ∧ (endStall s).resetLow = s.resetLow ∧
    (endStall s).cb = s.cb ∧ (endStall s).master = s.master ∧
    (endStall s).backplane = s.backplane ∧ (endStall s).port = s.port ∧
    (endStall s).chainReq = s.chainReq ∧ (endStall s).planReq = s.planReq ∧
    (endStall s).plan = s.plan ∧ (endStall s).transit = s.transit ∧
    (endStall s).stations = s.stations ∧ (endStall s).pockets = s.pockets ∧
    (endStall s).sweep = s.sweep ∧ (endStall s).chain = s.chain ∧
    (endStall s).retire = s.retire ∧ (endStall s).cmd = s.cmd := by
  unfold endStall
  split <;> simp

/-- What countAdvance leaves. -/
@[simp] theorem countAdvance_frame (s : State) :
    (countAdvance s).pending = s.pending ∧ (countAdvance s).resetLow = s.resetLow ∧
    (countAdvance s).cb = s.cb ∧ (countAdvance s).master = s.master ∧
    (countAdvance s).backplane = s.backplane ∧ (countAdvance s).port = s.port ∧
    (countAdvance s).noticeReq = s.noticeReq ∧ (countAdvance s).chainReq = s.chainReq ∧
    (countAdvance s).planReq = s.planReq ∧ (countAdvance s).plan = s.plan ∧
    (countAdvance s).stations = s.stations ∧ (countAdvance s).pockets = s.pockets ∧
    (countAdvance s).sweep = s.sweep ∧ (countAdvance s).chain = s.chain ∧
    (countAdvance s).retire = s.retire ∧ (countAdvance s).cmd = s.cmd ∧
    (countAdvance s).notice = s.notice := by
  simp [countAdvance]

/-- What takeLost leaves. -/
@[simp] theorem takeLost_frame (ls : List Letter) (s : State) :
    (takeLost ls s).pending = s.pending ∧ (takeLost ls s).resetLow = s.resetLow ∧
    (takeLost ls s).cb = s.cb ∧ (takeLost ls s).master = s.master ∧
    (takeLost ls s).backplane = s.backplane ∧ (takeLost ls s).port = s.port ∧
    (takeLost ls s).planReq = s.planReq ∧ (takeLost ls s).plan = s.plan ∧
    (takeLost ls s).stations = s.stations ∧ (takeLost ls s).sweep = s.sweep ∧
    (takeLost ls s).cmd = s.cmd := by
  induction ls generalizing s with
  | nil => simp [takeLost]
  | cons l ls ih =>
    unfold takeLost
    split <;> simp [ih]

/-- What takeDecides leaves. -/
@[simp] theorem takeDecides_frame (n : Nat) (s : State) :
    (takeDecides n s).pending = s.pending ∧ (takeDecides n s).resetLow = s.resetLow ∧
    (takeDecides n s).cb = s.cb ∧ (takeDecides n s).master = s.master ∧
    (takeDecides n s).backplane = s.backplane ∧ (takeDecides n s).port = s.port ∧
    (takeDecides n s).chainReq = s.chainReq ∧ (takeDecides n s).planReq = s.planReq ∧
    (takeDecides n s).plan = s.plan ∧ (takeDecides n s).transport = s.transport ∧
    (takeDecides n s).sweep = s.sweep ∧ (takeDecides n s).chain = s.chain ∧
    (takeDecides n s).retire = s.retire ∧ (takeDecides n s).cmd = s.cmd := by
  induction n generalizing s with
  | zero => simp [takeDecides]
  | succ n ih =>
    unfold takeDecides
    simp [ih]

/-- What takeExpiries leaves. -/
@[simp] theorem takeExpiries_frame (s : State) :
    (takeExpiries s).pending = s.pending ∧ (takeExpiries s).resetLow = s.resetLow ∧
    (takeExpiries s).cb = s.cb ∧ (takeExpiries s).master = s.master ∧
    (takeExpiries s).backplane = s.backplane ∧ (takeExpiries s).port = s.port ∧
    (takeExpiries s).planReq = s.planReq ∧ (takeExpiries s).plan = s.plan ∧
    (takeExpiries s).sweep = s.sweep ∧ (takeExpiries s).cmd = s.cmd := by
  simp [takeExpiries]

/-- What advance leaves. -/
@[simp] theorem advance_frame (s : State) :
    (advance s).pending = s.pending ∧ (advance s).resetLow = s.resetLow ∧ (advance s).cb = s.cb ∧
    (advance s).master = s.master ∧ (advance s).backplane = s.backplane ∧
    (advance s).port = s.port ∧ (advance s).planReq = s.planReq ∧ (advance s).plan = s.plan ∧
    (advance s).sweep = s.sweep ∧ (advance s).cmd = s.cmd := by
  simp [advance]

/-- What purgeLetters leaves. -/
@[simp] theorem purgeLetters_frame (ls : List Letter) (s : State) :
    (purgeLetters ls s).pending = s.pending ∧ (purgeLetters ls s).resetLow = s.resetLow ∧
    (purgeLetters ls s).cb = s.cb ∧ (purgeLetters ls s).master = s.master ∧
    (purgeLetters ls s).backplane = s.backplane ∧ (purgeLetters ls s).port = s.port ∧
    (purgeLetters ls s).planReq = s.planReq ∧ (purgeLetters ls s).plan = s.plan ∧
    (purgeLetters ls s).stations = s.stations ∧ (purgeLetters ls s).sweep = s.sweep ∧
    (purgeLetters ls s).cmd = s.cmd := by
  induction ls generalizing s with
  | nil => simp [purgeLetters]
  | cons l ls ih =>
    unfold purgeLetters
    simp [ih]

/-- What newBatch leaves. -/
@[simp] theorem newBatch_frame (p : PocketIx) (s : State) :
    (newBatch p s).pending = s.pending ∧ (newBatch p s).resetLow = s.resetLow ∧
    (newBatch p s).cb = s.cb ∧ (newBatch p s).master = s.master ∧
    (newBatch p s).backplane = s.backplane ∧ (newBatch p s).port = s.port ∧
    (newBatch p s).noticeReq = s.noticeReq ∧ (newBatch p s).chainReq = s.chainReq ∧
    (newBatch p s).planReq = s.planReq ∧ (newBatch p s).plan = s.plan ∧
    (newBatch p s).transport = s.transport ∧ (newBatch p s).transit = s.transit ∧
    (newBatch p s).stations = s.stations ∧ (newBatch p s).sweep = s.sweep ∧
    (newBatch p s).chain = s.chain ∧ (newBatch p s).retire = s.retire ∧
    (newBatch p s).cmd = s.cmd ∧ (newBatch p s).notice = s.notice := by
  simp [newBatch]

/-- What startDrain leaves. -/
@[simp] theorem startDrain_frame (p : PocketIx) (t : DrainTarget) (s : State) :
    (startDrain p t s).pending = s.pending ∧ (startDrain p t s).resetLow = s.resetLow ∧
    (startDrain p t s).cb = s.cb ∧ (startDrain p t s).master = s.master ∧
    (startDrain p t s).backplane = s.backplane ∧ (startDrain p t s).port = s.port ∧
    (startDrain p t s).noticeReq = s.noticeReq ∧ (startDrain p t s).chainReq = s.chainReq ∧
    (startDrain p t s).planReq = s.planReq ∧ (startDrain p t s).plan = s.plan ∧
    (startDrain p t s).transport = s.transport ∧ (startDrain p t s).transit = s.transit ∧
    (startDrain p t s).stations = s.stations ∧ (startDrain p t s).sweep = s.sweep ∧
    (startDrain p t s).chain = s.chain ∧ (startDrain p t s).retire = s.retire ∧
    (startDrain p t s).cmd = s.cmd ∧ (startDrain p t s).notice = s.notice := by
  simp [startDrain]

/-- What ackBatch leaves. -/
@[simp] theorem ackBatch_frame (c : Command) (p : PocketIx) (s : State) :
    (ackBatch c p s).pending = s.pending ∧ (ackBatch c p s).resetLow = s.resetLow ∧
    (ackBatch c p s).cb = s.cb ∧ (ackBatch c p s).master = s.master ∧
    (ackBatch c p s).backplane = s.backplane ∧ (ackBatch c p s).port = s.port ∧
    (ackBatch c p s).chainReq = s.chainReq ∧ (ackBatch c p s).planReq = s.planReq ∧
    (ackBatch c p s).plan = s.plan ∧ (ackBatch c p s).transport = s.transport ∧
    (ackBatch c p s).transit = s.transit ∧ (ackBatch c p s).stations = s.stations ∧
    (ackBatch c p s).pockets = s.pockets ∧ (ackBatch c p s).chain = s.chain ∧
    (ackBatch c p s).retire = s.retire := by
  simp [ackBatch]

/-- What refuseSweep leaves. -/
@[simp] theorem refuseSweep_frame (c : Command) (r : ResultCode) (s : State) :
    (refuseSweep c r s).pending = s.pending ∧ (refuseSweep c r s).resetLow = s.resetLow ∧
    (refuseSweep c r s).cb = s.cb ∧ (refuseSweep c r s).master = s.master ∧
    (refuseSweep c r s).backplane = s.backplane ∧ (refuseSweep c r s).port = s.port ∧
    (refuseSweep c r s).chainReq = s.chainReq ∧ (refuseSweep c r s).planReq = s.planReq ∧
    (refuseSweep c r s).plan = s.plan ∧ (refuseSweep c r s).transport = s.transport ∧
    (refuseSweep c r s).transit = s.transit ∧ (refuseSweep c r s).stations = s.stations ∧
    (refuseSweep c r s).pockets = s.pockets ∧ (refuseSweep c r s).chain = s.chain ∧
    (refuseSweep c r s).retire = s.retire := by
  simp [refuseSweep]

/-- What disablePocket leaves. -/
@[simp] theorem disablePocket_frame (p : PocketIx) (s : State) :
    (disablePocket p s).pending = s.pending ∧ (disablePocket p s).resetLow = s.resetLow ∧
    (disablePocket p s).cb = s.cb ∧ (disablePocket p s).master = s.master ∧
    (disablePocket p s).backplane = s.backplane ∧ (disablePocket p s).port = s.port ∧
    (disablePocket p s).planReq = s.planReq ∧ (disablePocket p s).plan = s.plan ∧
    (disablePocket p s).transport = s.transport ∧ (disablePocket p s).transit = s.transit ∧
    (disablePocket p s).stations = s.stations := by
  simp only [disablePocket]
  split
  · split <;> simp
  all_goals simp

/-- What sweepPocket leaves. -/
@[simp] theorem sweepPocket_frame (p : PocketIx) (s : State) :
    (sweepPocket p s).pending = s.pending ∧ (sweepPocket p s).resetLow = s.resetLow ∧
    (sweepPocket p s).cb = s.cb ∧ (sweepPocket p s).master = s.master ∧
    (sweepPocket p s).backplane = s.backplane ∧ (sweepPocket p s).port = s.port ∧
    (sweepPocket p s).planReq = s.planReq ∧ (sweepPocket p s).plan = s.plan ∧
    (sweepPocket p s).transport = s.transport ∧ (sweepPocket p s).transit = s.transit ∧
    (sweepPocket p s).stations = s.stations ∧ (sweepPocket p s).sweep = s.sweep ∧
    (sweepPocket p s).cmd = s.cmd := by
  unfold sweepPocket
  split
  · split <;> simp
  all_goals simp

/-- What sweepPockets leaves. -/
@[simp] theorem sweepPockets_frame (ps : List PocketIx) (s : State) :
    (sweepPockets ps s).pending = s.pending ∧ (sweepPockets ps s).resetLow = s.resetLow ∧
    (sweepPockets ps s).cb = s.cb ∧ (sweepPockets ps s).master = s.master ∧
    (sweepPockets ps s).backplane = s.backplane ∧ (sweepPockets ps s).port = s.port ∧
    (sweepPockets ps s).planReq = s.planReq ∧ (sweepPockets ps s).plan = s.plan ∧
    (sweepPockets ps s).transport = s.transport ∧ (sweepPockets ps s).transit = s.transit ∧
    (sweepPockets ps s).stations = s.stations ∧ (sweepPockets ps s).sweep = s.sweep ∧
    (sweepPockets ps s).cmd = s.cmd := by
  unfold sweepPockets
  induction ps generalizing s with
  | nil => simp
  | cons p ps ih =>
    rw [List.foldl_cons]
    simp [ih]

/-- What ackStation leaves. -/
@[simp] theorem ackStation_frame (c : Command) (st : StationIx) (s : State) :
    (ackStation c st s).pending = s.pending ∧ (ackStation c st s).resetLow = s.resetLow ∧
    (ackStation c st s).cb = s.cb ∧ (ackStation c st s).master = s.master ∧
    (ackStation c st s).backplane = s.backplane ∧ (ackStation c st s).port = s.port ∧
    (ackStation c st s).chainReq = s.chainReq ∧ (ackStation c st s).planReq = s.planReq ∧
    (ackStation c st s).plan = s.plan ∧ (ackStation c st s).transport = s.transport ∧
    (ackStation c st s).transit = s.transit ∧ (ackStation c st s).stations = s.stations ∧
    (ackStation c st s).pockets = s.pockets ∧ (ackStation c st s).chain = s.chain ∧
    (ackStation c st s).retire = s.retire := by
  simp [ackStation]

/-- What clearStatus leaves. -/
@[simp] theorem clearStatus_frame (s : State) :
    (clearStatus s).pending = s.pending ∧ (clearStatus s).resetLow = s.resetLow ∧
    (clearStatus s).cb = s.cb ∧ (clearStatus s).master = s.master ∧
    (clearStatus s).backplane = s.backplane ∧ (clearStatus s).port = s.port ∧
    (clearStatus s).noticeReq = s.noticeReq ∧ (clearStatus s).chainReq = s.chainReq ∧
    (clearStatus s).planReq = s.planReq ∧ (clearStatus s).plan = s.plan ∧
    (clearStatus s).transport = s.transport ∧ (clearStatus s).transit = s.transit ∧
    (clearStatus s).pockets = s.pockets ∧ (clearStatus s).sweep = s.sweep ∧
    (clearStatus s).chain = s.chain ∧ (clearStatus s).retire = s.retire ∧
    (clearStatus s).cmd = s.cmd := by
  simp [clearStatus]

/-- What afterAbandoned leaves. -/
@[simp] theorem afterAbandoned_frame (s : State) :
    (afterAbandoned s).pending = s.pending ∧ (afterAbandoned s).resetLow = s.resetLow ∧
    (afterAbandoned s).cb = s.cb ∧ (afterAbandoned s).master = s.master ∧
    (afterAbandoned s).backplane = s.backplane ∧ (afterAbandoned s).port = s.port ∧
    (afterAbandoned s).noticeReq = s.noticeReq ∧ (afterAbandoned s).planReq = s.planReq ∧
    (afterAbandoned s).plan = s.plan ∧ (afterAbandoned s).transport = s.transport ∧
    (afterAbandoned s).transit = s.transit ∧ (afterAbandoned s).stations = s.stations ∧
    (afterAbandoned s).pockets = s.pockets ∧ (afterAbandoned s).sweep = s.sweep ∧
    (afterAbandoned s).chain = s.chain ∧ (afterAbandoned s).retire = s.retire ∧
    (afterAbandoned s).cmd = s.cmd ∧ (afterAbandoned s).notice = s.notice := by
  unfold afterAbandoned
  split <;> simp

/-- What descriptorFetched leaves. -/
@[simp] theorem descriptorFetched_frame (s : State) :
    (descriptorFetched s).pending = s.pending ∧ (descriptorFetched s).resetLow = s.resetLow ∧
    (descriptorFetched s).cb = s.cb ∧ (descriptorFetched s).master = s.master ∧
    (descriptorFetched s).backplane = s.backplane ∧ (descriptorFetched s).port = s.port ∧
    (descriptorFetched s).noticeReq = s.noticeReq ∧ (descriptorFetched s).planReq = s.planReq ∧
    (descriptorFetched s).plan = s.plan ∧ (descriptorFetched s).transport = s.transport ∧
    (descriptorFetched s).transit = s.transit ∧ (descriptorFetched s).stations = s.stations ∧
    (descriptorFetched s).pockets = s.pockets ∧ (descriptorFetched s).sweep = s.sweep ∧
    (descriptorFetched s).retire = s.retire ∧ (descriptorFetched s).cmd = s.cmd ∧
    (descriptorFetched s).notice = s.notice := by
  unfold descriptorFetched
  split
  · simp
  · split <;> simp

/-- What descriptorWord leaves. -/
@[simp] theorem descriptorWord_frame (d : Word) (s : State) :
    (descriptorWord d s).pending = s.pending ∧ (descriptorWord d s).resetLow = s.resetLow ∧
    (descriptorWord d s).cb = s.cb ∧ (descriptorWord d s).master = s.master ∧
    (descriptorWord d s).backplane = s.backplane ∧ (descriptorWord d s).port = s.port ∧
    (descriptorWord d s).noticeReq = s.noticeReq ∧ (descriptorWord d s).planReq = s.planReq ∧
    (descriptorWord d s).plan = s.plan ∧ (descriptorWord d s).transport = s.transport ∧
    (descriptorWord d s).transit = s.transit ∧ (descriptorWord d s).stations = s.stations ∧
    (descriptorWord d s).pockets = s.pockets ∧ (descriptorWord d s).sweep = s.sweep ∧
    (descriptorWord d s).retire = s.retire ∧ (descriptorWord d s).cmd = s.cmd ∧
    (descriptorWord d s).notice = s.notice := by
  unfold descriptorWord
  split <;> simp

/-- What rereadNextWord leaves. -/
@[simp] theorem rereadNextWord_frame (h : Bool) (s : State) :
    (rereadNextWord h s).pending = s.pending ∧ (rereadNextWord h s).resetLow = s.resetLow ∧
    (rereadNextWord h s).cb = s.cb ∧ (rereadNextWord h s).master = s.master ∧
    (rereadNextWord h s).backplane = s.backplane ∧ (rereadNextWord h s).port = s.port ∧
    (rereadNextWord h s).noticeReq = s.noticeReq ∧ (rereadNextWord h s).planReq = s.planReq ∧
    (rereadNextWord h s).plan = s.plan ∧ (rereadNextWord h s).transport = s.transport ∧
    (rereadNextWord h s).transit = s.transit ∧ (rereadNextWord h s).stations = s.stations ∧
    (rereadNextWord h s).pockets = s.pockets ∧ (rereadNextWord h s).sweep = s.sweep ∧
    (rereadNextWord h s).retire = s.retire ∧ (rereadNextWord h s).cmd = s.cmd ∧
    (rereadNextWord h s).notice = s.notice := by
  simp [rereadNextWord]

/-- What rereadWord leaves. -/
@[simp] theorem rereadWord_frame (d : Word) (s : State) :
    (rereadWord d s).pending = s.pending ∧ (rereadWord d s).resetLow = s.resetLow ∧
    (rereadWord d s).cb = s.cb ∧ (rereadWord d s).master = s.master ∧
    (rereadWord d s).backplane = s.backplane ∧ (rereadWord d s).port = s.port ∧
    (rereadWord d s).planReq = s.planReq ∧ (rereadWord d s).plan = s.plan ∧
    (rereadWord d s).transport = s.transport ∧ (rereadWord d s).transit = s.transit ∧
    (rereadWord d s).stations = s.stations ∧ (rereadWord d s).pockets = s.pockets ∧
    (rereadWord d s).sweep = s.sweep ∧ (rereadWord d s).retire = s.retire ∧
    (rereadWord d s).cmd = s.cmd := by
  unfold rereadWord
  split <;> simp

/-- What testDescriptorEnd leaves. -/
@[simp] theorem testDescriptorEnd_frame (b : Bool) (s : State) :
    (testDescriptorEnd b s).pending = s.pending ∧ (testDescriptorEnd b s).resetLow = s.resetLow ∧
    (testDescriptorEnd b s).cb = s.cb ∧ (testDescriptorEnd b s).master = s.master ∧
    (testDescriptorEnd b s).backplane = s.backplane ∧ (testDescriptorEnd b s).port = s.port ∧
    (testDescriptorEnd b s).noticeReq = s.noticeReq ∧
    (testDescriptorEnd b s).planReq = s.planReq ∧ (testDescriptorEnd b s).plan = s.plan ∧
    (testDescriptorEnd b s).transport = s.transport ∧
    (testDescriptorEnd b s).transit = s.transit ∧ (testDescriptorEnd b s).stations = s.stations ∧
    (testDescriptorEnd b s).pockets = s.pockets ∧ (testDescriptorEnd b s).sweep = s.sweep ∧
    (testDescriptorEnd b s).retire = s.retire ∧ (testDescriptorEnd b s).cmd = s.cmd ∧
    (testDescriptorEnd b s).notice = s.notice := by
  unfold testDescriptorEnd
  split
  · simp
  · split
    · simp
    · split <;> simp

/-- What recordAccepted leaves. -/
@[simp] theorem recordAccepted_frame (s : State) :
    (recordAccepted s).pending = s.pending ∧ (recordAccepted s).resetLow = s.resetLow ∧
    (recordAccepted s).cb = s.cb ∧ (recordAccepted s).master = s.master ∧
    (recordAccepted s).backplane = s.backplane ∧ (recordAccepted s).port = s.port ∧
    (recordAccepted s).planReq = s.planReq ∧ (recordAccepted s).plan = s.plan ∧
    (recordAccepted s).transit = s.transit ∧ (recordAccepted s).stations = s.stations ∧
    (recordAccepted s).pockets = s.pockets ∧ (recordAccepted s).sweep = s.sweep ∧
    (recordAccepted s).cmd = s.cmd := by
  unfold recordAccepted
  split <;> simp

/-- What recordWordAccepted leaves. -/
@[simp] theorem recordWordAccepted_frame (s : State) :
    (recordWordAccepted s).pending = s.pending ∧ (recordWordAccepted s).resetLow = s.resetLow ∧
    (recordWordAccepted s).cb = s.cb ∧ (recordWordAccepted s).master = s.master ∧
    (recordWordAccepted s).backplane = s.backplane ∧ (recordWordAccepted s).port = s.port ∧
    (recordWordAccepted s).planReq = s.planReq ∧ (recordWordAccepted s).plan = s.plan ∧
    (recordWordAccepted s).transit = s.transit ∧ (recordWordAccepted s).stations = s.stations ∧
    (recordWordAccepted s).pockets = s.pockets ∧ (recordWordAccepted s).sweep = s.sweep ∧
    (recordWordAccepted s).cmd = s.cmd := by
  unfold recordWordAccepted
  split
  · split <;> simp
  all_goals simp

/-- What notifyDone leaves. -/
@[simp] theorem notifyDone_frame (e : EndCause) (s : State) :
    (notifyDone e s).pending = s.pending ∧ (notifyDone e s).resetLow = s.resetLow ∧
    (notifyDone e s).cb = s.cb ∧ (notifyDone e s).master = s.master ∧
    (notifyDone e s).backplane = s.backplane ∧ (notifyDone e s).port = s.port ∧
    (notifyDone e s).chainReq = s.chainReq ∧ (notifyDone e s).planReq = s.planReq ∧
    (notifyDone e s).plan = s.plan ∧ (notifyDone e s).transport = s.transport ∧
    (notifyDone e s).transit = s.transit ∧ (notifyDone e s).stations = s.stations ∧
    (notifyDone e s).pockets = s.pockets ∧ (notifyDone e s).sweep = s.sweep ∧
    (notifyDone e s).chain = s.chain ∧ (notifyDone e s).retire = s.retire ∧
    (notifyDone e s).cmd = s.cmd := by
  unfold notifyDone
  split <;> simp

/-- What leaveDescriptor leaves. -/
@[simp] theorem leaveDescriptor_frame (e : EndCause) (s : State) :
    (leaveDescriptor e s).pending = s.pending ∧ (leaveDescriptor e s).resetLow = s.resetLow ∧
    (leaveDescriptor e s).cb = s.cb ∧ (leaveDescriptor e s).master = s.master ∧
    (leaveDescriptor e s).backplane = s.backplane ∧ (leaveDescriptor e s).port = s.port ∧
    (leaveDescriptor e s).planReq = s.planReq ∧ (leaveDescriptor e s).plan = s.plan ∧
    (leaveDescriptor e s).transport = s.transport ∧ (leaveDescriptor e s).transit = s.transit ∧
    (leaveDescriptor e s).stations = s.stations ∧ (leaveDescriptor e s).pockets = s.pockets ∧
    (leaveDescriptor e s).sweep = s.sweep ∧ (leaveDescriptor e s).retire = s.retire ∧
    (leaveDescriptor e s).cmd = s.cmd := by
  unfold leaveDescriptor
  split
  · simp
  · split <;> split <;> simp

/-- What completionAccepted leaves. -/
@[simp] theorem completionAccepted_frame (s : State) :
    (completionAccepted s).pending = s.pending ∧ (completionAccepted s).resetLow = s.resetLow ∧
    (completionAccepted s).cb = s.cb ∧ (completionAccepted s).master = s.master ∧
    (completionAccepted s).backplane = s.backplane ∧ (completionAccepted s).port = s.port ∧
    (completionAccepted s).planReq = s.planReq ∧ (completionAccepted s).plan = s.plan ∧
    (completionAccepted s).transport = s.transport ∧ (completionAccepted s).transit = s.transit ∧
    (completionAccepted s).stations = s.stations ∧ (completionAccepted s).pockets = s.pockets ∧
    (completionAccepted s).sweep = s.sweep ∧ (completionAccepted s).retire = s.retire ∧
    (completionAccepted s).cmd = s.cmd := by
  unfold completionAccepted
  split <;> simp

/-- What lastPointerWritten leaves. -/
@[simp] theorem lastPointerWritten_frame (d : Word) (s : State) :
    (lastPointerWritten d s).pending = s.pending ∧
    (lastPointerWritten d s).resetLow = s.resetLow ∧ (lastPointerWritten d s).cb = s.cb ∧
    (lastPointerWritten d s).master = s.master ∧
    (lastPointerWritten d s).backplane = s.backplane ∧ (lastPointerWritten d s).port = s.port ∧
    (lastPointerWritten d s).noticeReq = s.noticeReq ∧
    (lastPointerWritten d s).planReq = s.planReq ∧ (lastPointerWritten d s).plan = s.plan ∧
    (lastPointerWritten d s).transport = s.transport ∧
    (lastPointerWritten d s).transit = s.transit ∧
    (lastPointerWritten d s).stations = s.stations ∧
    (lastPointerWritten d s).pockets = s.pockets ∧ (lastPointerWritten d s).sweep = s.sweep ∧
    (lastPointerWritten d s).retire = s.retire ∧ (lastPointerWritten d s).cmd = s.cmd ∧
    (lastPointerWritten d s).notice = s.notice := by
  simp only [lastPointerWritten]
  split <;> simp

/-- What chainStarted leaves. -/
@[simp] theorem chainStarted_frame (s : State) :
    (chainStarted s).pending = s.pending ∧ (chainStarted s).resetLow = s.resetLow ∧
    (chainStarted s).cb = s.cb ∧ (chainStarted s).master = s.master ∧
    (chainStarted s).backplane = s.backplane ∧ (chainStarted s).port = s.port ∧
    (chainStarted s).planReq = s.planReq ∧ (chainStarted s).plan = s.plan ∧
    (chainStarted s).transport = s.transport ∧ (chainStarted s).transit = s.transit ∧
    (chainStarted s).stations = s.stations ∧ (chainStarted s).pockets = s.pockets ∧
    (chainStarted s).retire = s.retire := by
  simp [chainStarted]

/-- What resumeHeld leaves. -/
@[simp] theorem resumeHeld_frame (s : State) :
    (resumeHeld s).pending = s.pending ∧ (resumeHeld s).resetLow = s.resetLow ∧
    (resumeHeld s).cb = s.cb ∧ (resumeHeld s).master = s.master ∧
    (resumeHeld s).backplane = s.backplane ∧ (resumeHeld s).port = s.port ∧
    (resumeHeld s).noticeReq = s.noticeReq ∧ (resumeHeld s).planReq = s.planReq ∧
    (resumeHeld s).plan = s.plan ∧ (resumeHeld s).transport = s.transport ∧
    (resumeHeld s).transit = s.transit ∧ (resumeHeld s).stations = s.stations ∧
    (resumeHeld s).pockets = s.pockets ∧ (resumeHeld s).sweep = s.sweep ∧
    (resumeHeld s).retire = s.retire ∧ (resumeHeld s).cmd = s.cmd ∧
    (resumeHeld s).notice = s.notice := by
  simp [resumeHeld]

/-- What stopFilling leaves. -/
@[simp] theorem stopFilling_frame (s : State) :
    (stopFilling s).pending = s.pending ∧ (stopFilling s).resetLow = s.resetLow ∧
    (stopFilling s).cb = s.cb ∧ (stopFilling s).master = s.master ∧
    (stopFilling s).backplane = s.backplane ∧ (stopFilling s).noticeReq = s.noticeReq ∧
    (stopFilling s).planReq = s.planReq ∧ (stopFilling s).plan = s.plan ∧
    (stopFilling s).transport = s.transport ∧ (stopFilling s).transit = s.transit ∧
    (stopFilling s).stations = s.stations ∧ (stopFilling s).pockets = s.pockets ∧
    (stopFilling s).sweep = s.sweep ∧ (stopFilling s).retire = s.retire ∧
    (stopFilling s).cmd = s.cmd ∧ (stopFilling s).notice = s.notice := by
  simp [stopFilling]

/-- What chainStopFilling leaves. -/
@[simp] theorem chainStopFilling_frame (s : State) :
    (chainStopFilling s).pending = s.pending ∧ (chainStopFilling s).resetLow = s.resetLow ∧
    (chainStopFilling s).cb = s.cb ∧ (chainStopFilling s).master = s.master ∧
    (chainStopFilling s).backplane = s.backplane ∧ (chainStopFilling s).planReq = s.planReq ∧
    (chainStopFilling s).plan = s.plan ∧ (chainStopFilling s).transport = s.transport ∧
    (chainStopFilling s).transit = s.transit ∧ (chainStopFilling s).stations = s.stations ∧
    (chainStopFilling s).pockets = s.pockets ∧ (chainStopFilling s).retire = s.retire := by
  unfold chainStopFilling
  split <;> simp

/-- What chainTurnOff leaves. -/
@[simp] theorem chainTurnOff_frame (s : State) :
    (chainTurnOff s).pending = s.pending ∧ (chainTurnOff s).resetLow = s.resetLow ∧
    (chainTurnOff s).cb = s.cb ∧ (chainTurnOff s).master = s.master ∧
    (chainTurnOff s).backplane = s.backplane ∧ (chainTurnOff s).planReq = s.planReq ∧
    (chainTurnOff s).plan = s.plan ∧ (chainTurnOff s).transport = s.transport ∧
    (chainTurnOff s).transit = s.transit ∧ (chainTurnOff s).stations = s.stations ∧
    (chainTurnOff s).pockets = s.pockets ∧ (chainTurnOff s).sweep = s.sweep ∧
    (chainTurnOff s).retire = s.retire ∧ (chainTurnOff s).cmd = s.cmd := by
  simp [chainTurnOff]

/-- What flushFilling leaves. -/
@[simp] theorem flushFilling_frame (s : State) :
    (flushFilling s).pending = s.pending ∧ (flushFilling s).resetLow = s.resetLow ∧
    (flushFilling s).cb = s.cb ∧ (flushFilling s).master = s.master ∧
    (flushFilling s).backplane = s.backplane ∧ (flushFilling s).port = s.port ∧
    (flushFilling s).noticeReq = s.noticeReq ∧ (flushFilling s).planReq = s.planReq ∧
    (flushFilling s).plan = s.plan ∧ (flushFilling s).transport = s.transport ∧
    (flushFilling s).transit = s.transit ∧ (flushFilling s).stations = s.stations ∧
    (flushFilling s).pockets = s.pockets ∧ (flushFilling s).sweep = s.sweep ∧
    (flushFilling s).retire = s.retire ∧ (flushFilling s).cmd = s.cmd ∧
    (flushFilling s).notice = s.notice := by
  unfold flushFilling
  split
  · simp
  · split <;> simp

/-- What acceptLoad leaves. -/
@[simp] theorem acceptLoad_frame (arg : BitVec 24) (s : State) :
    (acceptLoad arg s).pending = s.pending ∧ (acceptLoad arg s).resetLow = s.resetLow ∧
    (acceptLoad arg s).cb = s.cb ∧ (acceptLoad arg s).master = s.master ∧
    (acceptLoad arg s).backplane = s.backplane ∧ (acceptLoad arg s).port = s.port ∧
    (acceptLoad arg s).noticeReq = s.noticeReq ∧ (acceptLoad arg s).chainReq = s.chainReq ∧
    (acceptLoad arg s).transport = s.transport ∧ (acceptLoad arg s).transit = s.transit ∧
    (acceptLoad arg s).stations = s.stations ∧ (acceptLoad arg s).pockets = s.pockets ∧
    (acceptLoad arg s).chain = s.chain ∧ (acceptLoad arg s).retire = s.retire ∧
    (acceptLoad arg s).notice = s.notice := by
  simp [acceptLoad]

/-- What applyLayout leaves. -/
@[simp] theorem applyLayout_frame (l : Layout) (rs : List PocketRecord) (s : State) :
    (applyLayout l rs s).pending = s.pending ∧ (applyLayout l rs s).resetLow = s.resetLow ∧
    (applyLayout l rs s).cb = s.cb ∧ (applyLayout l rs s).master = s.master ∧
    (applyLayout l rs s).backplane = s.backplane ∧ (applyLayout l rs s).chainReq = s.chainReq ∧
    (applyLayout l rs s).planReq = s.planReq ∧ (applyLayout l rs s).transport = s.transport ∧
    (applyLayout l rs s).sweep = s.sweep ∧ (applyLayout l rs s).chain = s.chain ∧
    (applyLayout l rs s).retire = s.retire ∧ (applyLayout l rs s).cmd = s.cmd := by
  simp [applyLayout]

/-- What placeLayout leaves. -/
@[simp] theorem placeLayout_frame (ld : Load) (l : Layout) (s : State) :
    (placeLayout ld l s).pending = s.pending ∧ (placeLayout ld l s).resetLow = s.resetLow ∧
    (placeLayout ld l s).cb = s.cb ∧ (placeLayout ld l s).master = s.master ∧
    (placeLayout ld l s).backplane = s.backplane ∧ (placeLayout ld l s).chainReq = s.chainReq ∧
    (placeLayout ld l s).planReq = s.planReq ∧ (placeLayout ld l s).sweep = s.sweep ∧
    (placeLayout ld l s).chain = s.chain ∧ (placeLayout ld l s).retire = s.retire ∧
    (placeLayout ld l s).cmd = s.cmd := by
  unfold placeLayout
  split <;> simp

/-- What completeLoadWith leaves. -/
@[simp] theorem completeLoadWith_frame (ld : Load) (l : Layout) (p : Params) (s : State) :
    (completeLoadWith ld l p s).pending = s.pending ∧
    (completeLoadWith ld l p s).resetLow = s.resetLow ∧ (completeLoadWith ld l p s).cb = s.cb ∧
    (completeLoadWith ld l p s).master = s.master ∧
    (completeLoadWith ld l p s).backplane = s.backplane ∧
    (completeLoadWith ld l p s).chainReq = s.chainReq ∧
    (completeLoadWith ld l p s).planReq = s.planReq ∧
    (completeLoadWith ld l p s).sweep = s.sweep ∧ (completeLoadWith ld l p s).chain = s.chain ∧
    (completeLoadWith ld l p s).retire = s.retire := by
  simp [completeLoadWith]

/-- What blockPassed leaves. -/
@[simp] theorem blockPassed_frame (ld : Load) (s : State) :
    (blockPassed ld s).pending = s.pending ∧ (blockPassed ld s).resetLow = s.resetLow ∧
    (blockPassed ld s).cb = s.cb ∧ (blockPassed ld s).master = s.master ∧
    (blockPassed ld s).backplane = s.backplane ∧ (blockPassed ld s).chainReq = s.chainReq ∧
    (blockPassed ld s).sweep = s.sweep ∧ (blockPassed ld s).chain = s.chain ∧
    (blockPassed ld s).retire = s.retire := by
  unfold blockPassed
  split
  · split <;> simp
  · simp

/-- What checkLayoutBlock leaves. -/
@[simp] theorem checkLayoutBlock_frame (ld : Load) (bs : List Byte) (s : State) :
    (checkLayoutBlock ld bs s).pending = s.pending ∧
    (checkLayoutBlock ld bs s).resetLow = s.resetLow ∧ (checkLayoutBlock ld bs s).cb = s.cb ∧
    (checkLayoutBlock ld bs s).master = s.master ∧
    (checkLayoutBlock ld bs s).backplane = s.backplane ∧
    (checkLayoutBlock ld bs s).chainReq = s.chainReq ∧
    (checkLayoutBlock ld bs s).sweep = s.sweep ∧ (checkLayoutBlock ld bs s).chain = s.chain ∧
    (checkLayoutBlock ld bs s).retire = s.retire := by
  simp only [checkLayoutBlock]
  split
  · simp
  · split <;> simp

/-- What checkParamBlock leaves. -/
@[simp] theorem checkParamBlock_frame (ld : Load) (l : Layout) (bs : List Byte) (s : State) :
    (checkParamBlock ld l bs s).pending = s.pending ∧
    (checkParamBlock ld l bs s).resetLow = s.resetLow ∧ (checkParamBlock ld l bs s).cb = s.cb ∧
    (checkParamBlock ld l bs s).master = s.master ∧
    (checkParamBlock ld l bs s).backplane = s.backplane ∧
    (checkParamBlock ld l bs s).chainReq = s.chainReq ∧
    (checkParamBlock ld l bs s).sweep = s.sweep ∧ (checkParamBlock ld l bs s).chain = s.chain ∧
    (checkParamBlock ld l bs s).retire = s.retire := by
  unfold checkParamBlock
  split <;> simp

/-- What checkPocketBlock leaves. -/
@[simp] theorem checkPocketBlock_frame (ld : Load) (l : Layout) (j : Nat) (bs : List Byte) (s : State) :
    (checkPocketBlock ld l j bs s).pending = s.pending ∧
    (checkPocketBlock ld l j bs s).resetLow = s.resetLow ∧
    (checkPocketBlock ld l j bs s).cb = s.cb ∧ (checkPocketBlock ld l j bs s).master = s.master ∧
    (checkPocketBlock ld l j bs s).backplane = s.backplane ∧
    (checkPocketBlock ld l j bs s).chainReq = s.chainReq ∧
    (checkPocketBlock ld l j bs s).sweep = s.sweep ∧
    (checkPocketBlock ld l j bs s).chain = s.chain ∧
    (checkPocketBlock ld l j bs s).retire = s.retire := by
  unfold checkPocketBlock
  split <;> simp

/-- What checkRuleBlock leaves. -/
@[simp] theorem checkRuleBlock_frame (ld : Load) (l : Layout) (p : Params) (j : Nat) (bs : List Byte) (s : State) :
    (checkRuleBlock ld l p j bs s).pending = s.pending ∧
    (checkRuleBlock ld l p j bs s).resetLow = s.resetLow ∧
    (checkRuleBlock ld l p j bs s).cb = s.cb ∧ (checkRuleBlock ld l p j bs s).master = s.master ∧
    (checkRuleBlock ld l p j bs s).backplane = s.backplane ∧
    (checkRuleBlock ld l p j bs s).chainReq = s.chainReq ∧
    (checkRuleBlock ld l p j bs s).sweep = s.sweep ∧
    (checkRuleBlock ld l p j bs s).chain = s.chain ∧
    (checkRuleBlock ld l p j bs s).retire = s.retire := by
  unfold checkRuleBlock
  split <;> simp

/-- What checkPayload leaves. -/
@[simp] theorem checkPayload_frame (ld : Load) (bs : List Byte) (s : State) :
    (checkPayload ld bs s).pending = s.pending ∧ (checkPayload ld bs s).resetLow = s.resetLow ∧
    (checkPayload ld bs s).cb = s.cb ∧ (checkPayload ld bs s).master = s.master ∧
    (checkPayload ld bs s).backplane = s.backplane ∧
    (checkPayload ld bs s).chainReq = s.chainReq ∧ (checkPayload ld bs s).sweep = s.sweep ∧
    (checkPayload ld bs s).chain = s.chain ∧ (checkPayload ld bs s).retire = s.retire := by
  unfold checkPayload
  split
  · split <;> simp
  all_goals simp

/-- What checkBlock leaves. -/
@[simp] theorem checkBlock_frame (ld : Load) (s : State) :
    (checkBlock ld s).pending = s.pending ∧ (checkBlock ld s).resetLow = s.resetLow ∧
    (checkBlock ld s).cb = s.cb ∧ (checkBlock ld s).master = s.master ∧
    (checkBlock ld s).backplane = s.backplane ∧ (checkBlock ld s).chainReq = s.chainReq ∧
    (checkBlock ld s).sweep = s.sweep ∧ (checkBlock ld s).chain = s.chain ∧
    (checkBlock ld s).retire = s.retire := by
  simp only [checkBlock]
  split
  · simp
  · split <;> simp

/-- What planWord leaves. -/
@[simp] theorem planWord_frame (ld : Load) (d : Word) (s : State) :
    (planWord ld d s).pending = s.pending ∧ (planWord ld d s).resetLow = s.resetLow ∧
    (planWord ld d s).cb = s.cb ∧ (planWord ld d s).master = s.master ∧
    (planWord ld d s).backplane = s.backplane ∧ (planWord ld d s).chainReq = s.chainReq ∧
    (planWord ld d s).sweep = s.sweep ∧ (planWord ld d s).chain = s.chain ∧
    (planWord ld d s).retire = s.retire := by
  simp only [planWord]
  split <;> simp

/-- What planAnswer leaves. -/
@[simp] theorem planAnswer_frame (a : MemAnswer) (s : State) :
    (planAnswer a s).pending = s.pending ∧ (planAnswer a s).resetLow = s.resetLow ∧
    (planAnswer a s).cb = s.cb ∧ (planAnswer a s).master = s.master ∧
    (planAnswer a s).backplane = s.backplane ∧ (planAnswer a s).chainReq = s.chainReq ∧
    (planAnswer a s).sweep = s.sweep ∧ (planAnswer a s).chain = s.chain ∧
    (planAnswer a s).retire = s.retire := by
  unfold planAnswer
  split
  · split <;> simp
  · simp

/-- What abortLoad leaves. -/
@[simp] theorem abortLoad_frame (s : State) :
    (abortLoad s).pending = s.pending ∧ (abortLoad s).resetLow = s.resetLow ∧
    (abortLoad s).cb = s.cb ∧ (abortLoad s).master = s.master ∧
    (abortLoad s).backplane = s.backplane ∧ (abortLoad s).chainReq = s.chainReq ∧
    (abortLoad s).transport = s.transport ∧ (abortLoad s).stations = s.stations ∧
    (abortLoad s).sweep = s.sweep ∧ (abortLoad s).chain = s.chain ∧
    (abortLoad s).retire = s.retire := by
  unfold abortLoad
  split <;> simp

/-- What blockWrite leaves. -/
@[simp] theorem blockWrite_frame (c : BlockCause) (a : Word) (m : MasterNo) (e : Enables) (s : State) :
    (blockWrite c a m e s).pending = s.pending ∧ (blockWrite c a m e s).resetLow = s.resetLow ∧
    (blockWrite c a m e s).cb = s.cb ∧ (blockWrite c a m e s).master = s.master ∧
    (blockWrite c a m e s).port = s.port ∧ (blockWrite c a m e s).chainReq = s.chainReq ∧
    (blockWrite c a m e s).planReq = s.planReq ∧ (blockWrite c a m e s).plan = s.plan ∧
    (blockWrite c a m e s).transport = s.transport ∧ (blockWrite c a m e s).transit = s.transit ∧
    (blockWrite c a m e s).stations = s.stations ∧ (blockWrite c a m e s).pockets = s.pockets ∧
    (blockWrite c a m e s).sweep = s.sweep ∧ (blockWrite c a m e s).chain = s.chain ∧
    (blockWrite c a m e s).retire = s.retire ∧ (blockWrite c a m e s).cmd = s.cmd := by
  simp [blockWrite]

/-- What gateEffect leaves. -/
@[simp] theorem gateEffect_frame (slot : BitVec 8) (m : MasterNo) (s : State) :
    (gateEffect slot m s).pending = s.pending ∧ (gateEffect slot m s).resetLow = s.resetLow ∧
    (gateEffect slot m s).cb = s.cb ∧ (gateEffect slot m s).master = s.master ∧
    (gateEffect slot m s).backplane = s.backplane ∧ (gateEffect slot m s).port = s.port ∧
    (gateEffect slot m s).planReq = s.planReq ∧ (gateEffect slot m s).plan = s.plan ∧
    (gateEffect slot m s).stations = s.stations ∧ (gateEffect slot m s).sweep = s.sweep ∧
    (gateEffect slot m s).cmd = s.cmd := by
  unfold gateEffect
  split <;> simp

/-- What gateRead leaves. -/
@[simp] theorem gateRead_frame (slot : BitVec 8) (m : MasterNo) (s : State) :
    (gateRead slot m s).pending = s.pending ∧ (gateRead slot m s).resetLow = s.resetLow ∧
    (gateRead slot m s).cb = s.cb ∧ (gateRead slot m s).master = s.master ∧
    (gateRead slot m s).port = s.port ∧ (gateRead slot m s).planReq = s.planReq ∧
    (gateRead slot m s).plan = s.plan ∧ (gateRead slot m s).stations = s.stations ∧
    (gateRead slot m s).sweep = s.sweep ∧ (gateRead slot m s).cmd = s.cmd := by
  simp [gateRead]

/-- What answerOverlay leaves. -/
@[simp] theorem answerOverlay_frame (o : Overlay) (m : MasterNo) (s : State) :
    (answerOverlay o m s).pending = s.pending ∧ (answerOverlay o m s).resetLow = s.resetLow ∧
    (answerOverlay o m s).cb = s.cb ∧ (answerOverlay o m s).master = s.master ∧
    (answerOverlay o m s).port = s.port ∧ (answerOverlay o m s).planReq = s.planReq ∧
    (answerOverlay o m s).plan = s.plan ∧ (answerOverlay o m s).stations = s.stations ∧
    (answerOverlay o m s).sweep = s.sweep ∧ (answerOverlay o m s).cmd = s.cmd := by
  unfold answerOverlay
  split <;> simp

/-- What classify leaves. -/
@[simp] theorem classify_frame (a : Access) (s : State) :
    (classify a s).pending = s.pending ∧ (classify a s).resetLow = s.resetLow ∧
    (classify a s).cb = s.cb ∧ (classify a s).master = s.master ∧ (classify a s).port = s.port ∧
    (classify a s).planReq = s.planReq ∧ (classify a s).plan = s.plan ∧
    (classify a s).stations = s.stations ∧ (classify a s).sweep = s.sweep ∧
    (classify a s).cmd = s.cmd := by
  unfold classify
  generalize s.overlay (s.regionOf a.addr) = o
  generalize s.writeRefusal a.addr a.master = r
  cases a.op
  · cases o <;> simp
  · cases r <;> simp

/-- What grant leaves. -/
@[simp] theorem grant_frame (r : Requester) (s : State) :
    (grant r s).pending = s.pending ∧ (grant r s).resetLow = s.resetLow ∧ (grant r s).cb = s.cb ∧
    (grant r s).master = s.master ∧ (grant r s).plan = s.plan ∧
    (grant r s).transport = s.transport ∧ (grant r s).transit = s.transit ∧
    (grant r s).stations = s.stations ∧ (grant r s).pockets = s.pockets ∧
    (grant r s).sweep = s.sweep ∧ (grant r s).chain = s.chain ∧ (grant r s).retire = s.retire ∧
    (grant r s).cmd = s.cmd ∧ (grant r s).notice = s.notice := by
  cases r
  case passthrough =>
    simp only [grant, grantPassthrough]
    split <;> simp
  all_goals simp [grant]

/-- What passBack leaves. -/
@[simp] theorem passBack_frame (m : MasterNo) (o : BusOp) (a : MemAnswer) (s : State) :
    (passBack m o a s).pending = s.pending ∧ (passBack m o a s).resetLow = s.resetLow ∧
    (passBack m o a s).cb = s.cb ∧ (passBack m o a s).master = s.master ∧
    (passBack m o a s).noticeReq = s.noticeReq ∧ (passBack m o a s).chainReq = s.chainReq ∧
    (passBack m o a s).planReq = s.planReq ∧ (passBack m o a s).plan = s.plan ∧
    (passBack m o a s).transport = s.transport ∧ (passBack m o a s).transit = s.transit ∧
    (passBack m o a s).stations = s.stations ∧ (passBack m o a s).pockets = s.pockets ∧
    (passBack m o a s).sweep = s.sweep ∧ (passBack m o a s).chain = s.chain ∧
    (passBack m o a s).retire = s.retire ∧ (passBack m o a s).cmd = s.cmd ∧
    (passBack m o a s).notice = s.notice := by
  simp [passBack]

/-- What passBackLate leaves. -/
@[simp] theorem passBackLate_frame (m : MasterNo) (o : BusOp) (a : MemAnswer) (s : State) :
    (passBackLate m o a s).pending = s.pending ∧ (passBackLate m o a s).resetLow = s.resetLow ∧
    (passBackLate m o a s).cb = s.cb ∧ (passBackLate m o a s).master = s.master ∧
    (passBackLate m o a s).noticeReq = s.noticeReq ∧
    (passBackLate m o a s).chainReq = s.chainReq ∧ (passBackLate m o a s).planReq = s.planReq ∧
    (passBackLate m o a s).plan = s.plan ∧ (passBackLate m o a s).transport = s.transport ∧
    (passBackLate m o a s).transit = s.transit ∧ (passBackLate m o a s).stations = s.stations ∧
    (passBackLate m o a s).pockets = s.pockets ∧ (passBackLate m o a s).sweep = s.sweep ∧
    (passBackLate m o a s).chain = s.chain ∧ (passBackLate m o a s).retire = s.retire ∧
    (passBackLate m o a s).cmd = s.cmd ∧ (passBackLate m o a s).notice = s.notice := by
  simp [passBackLate]

/-- What refuseWord leaves. -/
@[simp] theorem refuseWord_frame (w : Word) (s : State) :
    (refuseWord w s).pending = s.pending ∧ (refuseWord w s).resetLow = s.resetLow ∧
    (refuseWord w s).cb = s.cb ∧ (refuseWord w s).master = s.master ∧
    (refuseWord w s).backplane = s.backplane ∧ (refuseWord w s).port = s.port ∧
    (refuseWord w s).chainReq = s.chainReq ∧ (refuseWord w s).planReq = s.planReq ∧
    (refuseWord w s).plan = s.plan ∧ (refuseWord w s).transport = s.transport ∧
    (refuseWord w s).transit = s.transit ∧ (refuseWord w s).stations = s.stations ∧
    (refuseWord w s).pockets = s.pockets ∧ (refuseWord w s).sweep = s.sweep ∧
    (refuseWord w s).chain = s.chain ∧ (refuseWord w s).retire = s.retire := by
  simp [refuseWord]

end Sys2Proof.Machine
end

