-- ==== Sys2Proof/Laws/Effects.lean ====
section
/-! SUPPORT. What the shared operations write: equality of states field by field, the notices that an event raises, and the effects of the acknowledgments and levels. -/

namespace Sys2Proof.Machine

/-- Two states with the same fields are the same state. -/
theorem State.eq_of_fields {s t : State} (h1 : s.pending = t.pending)
    (h2 : s.resetLow = t.resetLow) (h3 : s.cb = t.cb) (h4 : s.master = t.master)
    (h5 : s.backplane = t.backplane) (h6 : s.port = t.port) (h7 : s.noticeReq = t.noticeReq)
    (h8 : s.chainReq = t.chainReq) (h9 : s.planReq = t.planReq) (h10 : s.plan = t.plan)
    (h11 : s.transport = t.transport) (h12 : s.transit = t.transit)
    (h13 : s.stations = t.stations) (h14 : s.pockets = t.pockets) (h15 : s.sweep = t.sweep)
    (h16 : s.chain = t.chain) (h17 : s.retire = t.retire) (h18 : s.cmd = t.cmd)
    (h19 : s.notice = t.notice) : s = t := by
  cases s; cases t; simp_all

/-! ### The notices of an event (R161) -/

/-- The registers that NoticeRegistersKept keeps, one by one. -/
theorem State.NoticeRegistersKept.fields {s t : State} (h : s.NoticeRegistersKept t) :
    t.notice.mask = s.notice.mask ∧ t.notice.memory = s.notice.memory ∧
    t.notice.guard = s.notice.guard ∧ t.notice.badIndex = s.notice.badIndex ∧
    t.notice.ringFault = s.notice.ringFault ∧ t.notice.producer = s.notice.producer ∧
    t.notice.consumer = s.notice.consumer ∧ t.notice.mode = s.notice.mode ∧
    t.notice.armed = s.notice.armed ∧ t.notice.attn = s.notice.attn := by
  unfold State.NoticeRegistersKept at h
  refine ⟨?_, ?_, ?_, ?_, ?_, ?_, ?_, ?_, ?_, ?_⟩ <;> rw [← h]

/-- NoticeRegistersKept from its registers. -/
theorem State.NoticeRegistersKept.of_fields {s t : State}
    (h1 : t.notice.mask = s.notice.mask) (h2 : t.notice.memory = s.notice.memory)
    (h3 : t.notice.guard = s.notice.guard) (h4 : t.notice.badIndex = s.notice.badIndex)
    (h5 : t.notice.ringFault = s.notice.ringFault)
    (h6 : t.notice.producer = s.notice.producer)
    (h7 : t.notice.consumer = s.notice.consumer) (h8 : t.notice.mode = s.notice.mode)
    (h9 : t.notice.armed = s.notice.armed) (h10 : t.notice.attn = s.notice.attn) :
    s.NoticeRegistersKept t := by
  unfold State.NoticeRegistersKept
  dsimp only
  rw [h1, h2, h3, h4, h5, h6, h7, h8, h9, h10]

/-- Raising no notice leaves the FIFO. -/
@[simp] theorem State.queued_nil (s : State) : s.queued [] = s.notice.fifo := by
  simp [State.queued]

/-- What is queued depends on the FIFO, the mask and the position counter alone. -/
theorem State.queued_congr {s t : State} (hf : t.notice.fifo = s.notice.fifo)
    (hm : t.notice.mask = s.notice.mask) (hp : t.transport.position = s.transport.position)
    (ns : List Notice) : t.queued ns = s.queued ns := by
  have hs : t.stamp = s.stamp := by
    funext n
    simp [State.stamp, hp]
  simp [State.queued, hf, hm, hs]

/-- Two runs of notices in one event are queued as one. -/
theorem State.queued_append {s t : State} {ns : List Notice}
    (hf : t.notice.fifo = s.queued ns) (hm : t.notice.mask = s.notice.mask)
    (hp : t.transport.position = s.transport.position) (ms : List Notice) :
    t.queued ms = s.queued (ns ++ ms) := by
  have hs : t.stamp = s.stamp := by
    funext n
    simp [State.stamp, hp]
  simp only [State.queued, hm, hs]
  rw [hf]
  simp only [State.queued, List.filter_append, List.map_append, List.take_append,
    List.append_assoc, List.length_append, List.length_take, List.length_map]
  congr 3
  omega

/-- What is dropped depends on the FIFO's length and the mask alone. -/
theorem State.dropped_congr {s t : State} (hf : t.notice.fifo = s.notice.fifo)
    (hm : t.notice.mask = s.notice.mask) (ns : List Notice) : t.dropped ns = s.dropped ns := by
  simp [State.dropped, hf, hm]

@[simp] theorem State.dropped_nil (s : State) : s.dropped [] = 0 := by simp [State.dropped]

/-- The notices dropped in two parts of one event. -/
theorem State.dropped_append {s t : State} {ns : List Notice}
    (hf : t.notice.fifo = s.queued ns) (hm : t.notice.mask = s.notice.mask)
    (ms : List Notice) : s.dropped (ns ++ ms) = s.dropped ns + t.dropped ms := by
  simp only [State.dropped, hf, hm, State.queued, List.filter_append, List.length_append,
    List.length_take, List.length_map]
  omega

/-- The FIFO only grows while notices are raised, so it is as it was at the end only if it was between. -/
theorem State.queued_eq_fifo {s t : State} {ns ms : List Notice}
    (hf : t.notice.fifo = s.queued ns) (h : t.queued ms = s.notice.fifo) :
    t.notice.fifo = s.notice.fifo := by
  have hl := congrArg List.length h
  simp only [State.queued, hf, List.length_append] at hl
  rw [hf, State.queued, List.eq_nil_of_length_eq_zero (l := List.take _ _) (by omega),
    List.append_nil]

/-- Nothing of the notice unit, nor what governs it, has changed. -/
theorem State.Raised.refl {s t : State} (hn : t.notice = s.notice)
    (hp : t.transport.position = s.transport.position) (hr : t.noticeReq = s.noticeReq)
    (hl : t.plan.layout = s.plan.layout) : s.Raised t [] where
  fifo := by simp [hn]
  lostCount := by simp [hn]
  lost := by simp [hn]
  began := fun _ _ _ _ _ _ _ hne => absurd (by rw [hn]) hne
  stood := fun _ => ⟨by rw [hn], hr⟩
  kept := by
    unfold State.NoticeRegistersKept
    rw [hn]
  position := hp
  layout := hl

/-- The notices of two parts of one event. -/
theorem State.Raised.trans {s t u : State} {ns ms : List Notice} (h1 : s.Raised t ns)
    (h2 : t.Raised u ms) : s.Raised u (ns ++ ms) := by
  have f1 := h1.kept.fields
  have f2 := h2.kept.fields
  have hgrow : u.notice.fifo = s.notice.fifo → t.notice.fifo = s.notice.fifo := fun h =>
    State.queued_eq_fifo h1.fifo (h2.fifo.symm.trans h)
  refine ⟨?_, ?_, ?_, ?_, ?_, ?_, h2.position.trans h1.position, h2.layout.trans h1.layout⟩
  · rw [h2.fifo, State.queued_append h1.fifo f1.1 h1.position]
  · rw [h2.lostCount, h1.lostCount, State.dropped_append h1.fifo f1.1]
    omega
  · rw [h2.lost, h1.lost, State.dropped_append h1.fifo f1.1, Bool.or_assoc]
    congr 1
    rw [← Bool.decide_or]
    exact decide_eq_decide.2 Nat.add_pos_iff_pos_or_pos.symm
  · intro l h rest hl hf hroom hw hne hu
    have hl' : t.plan.layout = some l := h1.layout.trans hl
    have hf' : t.notice.ringFault = false := by simp_all
    have hroom' : (t.notice.producer + 1) % l.noticeSize ≠ t.notice.consumer := by
      rw [f1.2.2.2.2.2.1, f1.2.2.2.2.2.2.1]
      exact hroom
    by_cases ht : t.notice.fifo = s.notice.fifo
    · have hs := h1.stood (.inr (.inr ht))
      have := h2.began l h rest hl' hf' hroom' (hs.1.trans hw) (by rw [ht]; exact hne) hu
      rw [f1.2.2.2.2.2.1] at this
      exact this
    · cases hq : t.notice.fifo with
      | nil =>
        refine absurd ?_ ht
        have hl := congrArg List.length h1.fifo
        rw [hq, State.queued, List.length_append] at hl
        rw [hq]
        exact (List.eq_nil_of_length_eq_zero (by simp at hl; omega)).symm
      | cons h' rest' =>
        have hb := h1.began l h' rest' hl hf hroom hw ht hq
        have hs := h2.stood (.inr (.inl (by rw [hb.1]; simp)))
        have hh : h' = h := by
          have := h2.fifo
          rw [hu, State.queued, hq] at this
          simp only [List.cons_append, List.cons.injEq] at this
          exact this.1.symm
        subst hh
        exact ⟨hs.1.trans hb.1, hs.2.trans hb.2⟩
  · intro h
    have h' : (∀ l, t.plan.layout = some l → t.notice.ringFault = true ∨
        (t.notice.producer + 1) % l.noticeSize = t.notice.consumer) ∨
        s.notice.writing ≠ none ∨ u.notice.fifo = s.notice.fifo := by
      rw [h1.layout, f1.2.2.2.2.1, f1.2.2.2.2.2.1, f1.2.2.2.2.2.2.1]
      exact h
    have hs := h1.stood (by
      rcases h with h | h | h
      · exact .inl h
      · exact .inr (.inl h)
      · exact .inr (.inr (hgrow h)))
    have ht := h2.stood (by
      rcases h' with h | h | h
      · exact .inl h
      · exact .inr (.inl (by rw [hs.1]; exact h))
      · exact .inr (.inr (h.trans (hgrow h).symm)))
    exact ⟨ht.1.trans hs.1, ht.2.trans hs.2⟩
  · apply State.NoticeRegistersKept.of_fields <;> simp_all

/-- What presenting a notice word writes in the notice unit: its progress alone. -/
theorem noticePump_notice (s : State) :
    { (noticePump s).notice with writing := s.notice.writing } = s.notice := by
  unfold noticePump presentNoticeWord
  split
  · split <;> simp [State.presentNotice]
  · rfl

@[simp] theorem noticePump_transport (s : State) : (noticePump s).transport = s.transport := by
  simp

/-- Where the five conditions hold, word 0 of the head entry is presented (R163). -/
theorem noticePump_began {s : State} {l : Layout} {h : Notice} {rest : List Notice}
    (hl : s.plan.layout = some l) (hf : s.notice.ringFault = false)
    (hroom : (s.notice.producer + 1) % l.noticeSize ≠ s.notice.consumer)
    (hw : s.notice.writing = none) (hq : s.notice.fifo = h :: rest) :
    (noticePump s).notice.writing = some 0 ∧
    (noticePump s).noticeReq = ⟨some ⟨.noticeWord,
      ⟨BitVec.ofNat 32 (l.noticeBase + 16 * s.notice.producer), .write (h.word 0) 0xF#4⟩⟩, 0⟩ := by
  have hdue : s.noticeDue = true := by
    simp [State.noticeDue, State.ringRoom, Plan.ringSize, hl, hf, hw, hq, hroom]
  simp only [noticePump, hdue, if_true, presentNoticeWord, hl, hq]
  exact ⟨rfl, by simp [State.presentNotice, OwnReq.present, noticeWordAddr, ownWrite]⟩

/-- Where a write is in progress, or the ring takes none, nothing is presented (R163). -/
theorem noticePump_stood {s : State}
    (h : (∀ l, s.plan.layout = some l → s.notice.ringFault = true ∨
      (s.notice.producer + 1) % l.noticeSize = s.notice.consumer) ∨ s.notice.writing ≠ none) :
    noticePump s = s := by
  have hdue : s.noticeDue = false := by
    rcases h with h | h
    · cases hl : s.plan.layout with
      | none => simp [State.noticeDue, hl]
      | some l =>
        rcases h l hl with h | h <;>
          simp [State.noticeDue, State.ringRoom, Plan.ringSize, hl, h]
    · cases hw : s.notice.writing with
      | none => exact absurd hw h
      | some k => simp [State.noticeDue, hw]
  simp [noticePump, hdue]

/-- A notice raised joins the FIFO, if unmasked and with room, or is counted as lost; one that joins may begin its write; no other register changes (R161, R163). -/
theorem raise_raised (n : Notice) (s : State) : s.Raised (raise n s) [n] := by
  unfold raise
  split
  case isFalse h =>
    have hd : s.dropped [n] = 0 := by simp [State.dropped, h]
    exact ⟨by simp [State.queued, h], by simp [hd], by simp [hd],
      fun _ _ _ _ _ _ _ hne => absurd rfl hne, fun _ => ⟨rfl, rfl⟩, rfl, rfl, rfl⟩
  case isTrue h =>
    unfold enqueueNotice
    split
    case isTrue hl =>
      have hp := noticePump_notice { s with notice := { s.notice with
        fifo := s.notice.fifo ++ [{ n with position := s.transport.position }] } }
      have hd : s.dropped [n] = 0 := by
        simp only [State.dropped, h, List.filter_cons, List.filter_nil, if_true,
          List.length_singleton]
        omega
      have hf := congrArg NoticeUnit.fifo hp
      simp only at hf
      have hlc := congrArg NoticeUnit.lostCount hp
      have hlo := congrArg NoticeUnit.lost hp
      simp only at hlc hlo
      refine ⟨?_, by rw [hlc, hd]; omega, by rw [hlo, hd]; simp, ?_, ?_, ?_, by simp, by simp⟩
      · rw [hf]
        have : Config.maxFifo - s.notice.fifo.length = (Config.maxFifo - s.notice.fifo.length - 1) + 1 := by
          omega
        simp only [State.queued, h, List.filter_cons, List.filter_nil, if_true, List.map_cons,
          List.map_nil]
        rw [this]
        simp [State.stamp]
      · intro l h' rest hlay hrf hroom hw _ hq
        rw [hf] at hq
        exact noticePump_began hlay hrf hroom hw hq
      · intro hst
        rw [hf] at hst
        have hne : s.notice.fifo ++ [{ n with position := s.transport.position }] ≠
            s.notice.fifo := by simp
        rw [noticePump_stood (by
          rcases hst with h | h | h
          · exact .inl h
          · exact .inr h
          · exact absurd h hne)]
        exact ⟨rfl, rfl⟩
      · unfold State.NoticeRegistersKept
        rw [NoticeUnit.mk.injEq] at *
        simp_all
    case isFalse hl =>
      have hz : Config.maxFifo - s.notice.fifo.length = 0 := by omega
      have hd : s.dropped [n] = 1 := by simp [State.dropped, h, hz]
      refine ⟨by simp [State.queued, hz], ?_, by simp [hd],
        fun _ _ _ _ _ _ _ hne => absurd rfl hne, fun _ => ⟨rfl, rfl⟩, rfl, rfl, rfl⟩
      rw [hd]
      show (if s.notice.lostCount < 65535 then s.notice.lostCount + 1 else s.notice.lostCount) = _
      by_cases hc : s.notice.lostCount < 65535
      · rw [if_pos hc]
        omega
      · rw [if_neg hc]
        omega

/-- One notice more. -/
theorem State.Raised.raise {s t : State} {ns : List Notice} (h : s.Raised t ns) (n : Notice) :
    s.Raised (Machine.raise n t) (ns ++ [n]) := h.trans (raise_raised n t)

/-- Raising leaves the mask and the other registers that govern notices. -/
theorem State.Raised.congr_left {s s' t : State} {ns : List Notice} (h : s.Raised t ns)
    (hn : s'.notice = s.notice) (hp : s'.transport.position = s.transport.position)
    (hr : s'.noticeReq = s.noticeReq) (hl : s'.plan.layout = s.plan.layout) :
    s'.Raised t ns := by
  have := (State.Raised.refl (s := s') (t := s) hn.symm hp.symm hr.symm hl.symm).trans h
  simpa using this

@[simp] theorem raise_transport (n : Notice) (s : State) : (raise n s).transport = s.transport := by
  simp

/-! ### FEED_HOLD and the line (R53, R56, R57) -/

/-- The level of FEED_HOLD depends on the line, the latch, the layout and pocket 0 alone. -/
theorem State.hold_congr {s t : State} (hl : t.transport.line = s.transport.line)
    (ho : t.transport.occupancy = s.transport.occupancy) (hp : t.plan.layout = s.plan.layout)
    (hk : t.pockets = s.pockets) :
    t.holdLevel = s.holdLevel ∧ t.holdConditions = s.holdConditions ∧
      t.feedHoldNotice = s.feedHoldNotice := by
  simp [State.feedHoldNotice, State.holdConditions, State.holdLevel, State.holdLine,
    State.holdReject, hl, ho, hp, hk]

@[simp] theorem evalFeedHold_transport (s : State) :
    (evalFeedHold s).transport = { s.transport with feedHold := s.holdLevel } := by
  unfold evalFeedHold
  split
  case isTrue h => rw [h]
  case isFalse h => simp

/-- FEED_HOLD is evaluated: its notice is raised exactly when the level changes (R56). -/
theorem evalFeedHold_raised (s : State) :
    s.Raised (evalFeedHold s)
      (if s.holdLevel = s.transport.feedHold then [] else [s.feedHoldNotice]) := by
  unfold evalFeedHold
  split
  case isTrue h => exact .refl rfl rfl rfl rfl
  case isFalse h =>
    exact (State.Raised.refl (s := s) (t := { s with transport := { s.transport with
      feedHold := s.holdLevel } }) rfl rfl rfl rfl).raise _

@[simp] theorem evalOccupancy_transport (s : State) :
    (evalOccupancy s).transport = { s.transport with
      occupancy := nextOccupancy s.transport.occupancy s.occupancySum
      feedHold := (evalOccupancy s).holdLevel } := by
  have h := State.hold_congr (s := { s with transport := { s.transport with
      occupancy := nextOccupancy s.transport.occupancy s.occupancySum } }) (t := evalOccupancy s)
      (by simp [evalOccupancy]) (by simp [evalOccupancy]) (by simp) (by simp)
  rw [h.1]
  simp [evalOccupancy]

@[simp] theorem setLine_transport (l : LineState) (c : LineCause) (s : State) :
    (setLine l c s).transport = { s.transport with
      line := l
      feedHold := State.holdLevel { s with transport := { s.transport with line := l } } } := by
  have h := State.hold_congr (s := { s with transport := { s.transport with line := l } })
    (t := raise (lineNotice l s.transport.line c)
      { s with transport := { s.transport with line := l } }) (by simp) (by simp) (by simp)
    (by simp)
  simp [setLine, h.1]

/-- A change of the line state raises LINE_STATE, then FEED_HOLD where its level changes (R53, R56). -/
theorem setLine_raised (l : LineState) (c : LineCause) (s : State) :
    s.Raised (setLine l c s) (lineNotice l s.transport.line c ::
      if (setLine l c s).transport.feedHold = s.transport.feedHold then []
      else [(setLine l c s).feedHoldNotice]) := by
  have h1 := (State.Raised.refl (s := s) (t := { s with transport := { s.transport with
    line := l } }) rfl rfl rfl rfl).raise (lineNotice l s.transport.line c)
  have h2 := h1.trans (evalFeedHold_raised _)
  have h3 := State.hold_congr (s := raise (lineNotice l s.transport.line c)
      { s with transport := { s.transport with line := l } }) (t := setLine l c s)
      (by simp) (by simp) (by simp) (by simp)
  have h4 : (setLine l c s).transport.feedHold =
      (raise (lineNotice l s.transport.line c)
        { s with transport := { s.transport with line := l } }).holdLevel := by
    unfold setLine
    rw [evalFeedHold_transport]
  rw [h3.2.2, h4]
  simpa [setLine] using h2

@[simp] theorem restartStall_transport (s : State) :
    (restartStall s).transport = { s.transport with
      stall := if s.stallWatched then some 0 else none } := rfl

@[simp] theorem stopStallIfEmpty_transport (s : State) :
    (stopStallIfEmpty s).transport = { s.transport with
      stall := if s.transit.letters = [] then none else s.transport.stall } := by
  unfold stopStallIfEmpty
  cases h : s.transit.letters <;> simp

/-! ### Acknowledgments (R139, R159) -/

@[simp] theorem acknowledge_cmd (r : CmdResult) (s : State) :
    (acknowledge r s).cmd = { s.cmd with last := r, ackCount := s.cmd.ackCount + 1 } := by
  simp [acknowledge]

/-- An acknowledgment raises its CMD_ACK (R159). -/
theorem acknowledge_raised (r : CmdResult) (s : State) :
    s.Raised (acknowledge r s) [ackNotice r] := by
  exact (State.Raised.refl (s := s) (t := { s with cmd := { s.cmd with
    last := r, ackCount := s.cmd.ackCount + 1 } }) rfl rfl rfl rfl).raise _

@[simp] theorem ackTaken_sweep (c : Command) (arg : Word) (s : State) :
    (ackTaken c arg s).sweep = .idle := by
  simp [ackTaken]

@[simp] theorem ackTaken_cmd (c : Command) (arg : Word) (s : State) :
    (ackTaken c arg s).cmd = { s.cmd with
      last := ⟨c.opcode, .ok, s.sweepOpen, none, arg⟩, ackCount := s.cmd.ackCount + 1 } := by
  simp [ackTaken]

/-- A command taken raises its CMD_ACK (R159). -/
theorem ackTaken_raised (c : Command) (arg : Word) (s : State) :
    s.Raised (ackTaken c arg s) [ackNotice (ackTaken c arg s).cmd.last] := by
  rw [ackTaken_cmd]
  exact (State.Raised.refl (s := s) (t := { s with sweep := .idle }) rfl rfl rfl rfl).trans
    (acknowledge_raised _ _)

@[simp] theorem ackSweep_cmd (c : Command) (arg : Word) (s : State) :
    (ackSweep c arg s).cmd = { s.cmd with
      last := ⟨c.opcode, .ok, false, none, arg⟩, ackCount := s.cmd.ackCount + 1 } := by
  simp [ackSweep]

theorem ackSweep_raised (c : Command) (arg : Word) (s : State) :
    s.Raised (ackSweep c arg s) [ackNotice (ackSweep c arg s).cmd.last] := by
  rw [ackSweep_cmd]
  exact acknowledge_raised _ _

@[simp] theorem refuse_cmd (c : Command) (r : ResultCode) (s : State) :
    (refuse c r s).cmd = { s.cmd with
      last := ⟨c.opcode, r, false, none, c.argument.setWidth 32⟩
      ackCount := s.cmd.ackCount + 1 } := by
  simp [refuse]

theorem refuse_raised (c : Command) (r : ResultCode) (s : State) :
    s.Raised (refuse c r s) [ackNotice (refuse c r s).cmd.last] := by
  rw [refuse_cmd]
  exact acknowledge_raised _ _

/-- A refused command does nothing but acknowledge (R157, R159). -/
theorem refuse_refusedTo (c : Command) (r : ResultCode) (s : State) :
    s.RefusedTo (refuse c r s) c r := by
  have h := refuse_raised c r s
  refine ⟨by simp, h, ?_⟩
  apply State.eq_of_fields <;> simp [refuse]

/-! ### The retire buffer and the chain (R118, R141, R142) -/

/-- Work that begins is the work in progress, and nothing else of the chain changes. -/
@[simp] theorem beginWork_chain (w : ChainWork) (s : State) :
    (beginWork w s).chain = { s.chain with work := w } := by
  simp [beginWork]

/-- What pending work presents at the arbiter: its access, unless memory still has the engine's previous one (R145). -/
theorem beginWork_waits (w : ChainWork) (s : State) (h : s.atMemory .chain = true) :
    (beginWork w s).chainReq = s.chainReq := by
  have h' : ∀ c : Chain, State.atMemory { s with chain := c } .chain = true := fun _ => h
  unfold beginWork presentWork writeCompletion
  cases w <;> simp [h']
  split <;> simp [h']

/-- A record whose writing begins is the head of the buffer, at word 0; nothing else of the chain changes (R148). -/
@[simp] theorem chainPump_chain (s : State) :
    (chainPump s).chain =
      if s.chain.state = .filling ∧ s.chain.work = .none ∧ s.retire ≠ [] then
        { s.chain with work := .record 0 }
      else s.chain := by
  unfold chainPump
  split <;> simp

@[simp] theorem retireRecord_retire (d : Disposition) (s : State) :
    (retireRecord d s).retire = s.retire ++ [⟨d, false⟩] := by
  simp [retireRecord]

theorem modifyLast_map {α β : Type} (f : α → α) (g : α → β) (h : ∀ x, g (f x) = g x) :
    ∀ xs : List α, (modifyLast f xs).map g = xs.map g
  | [] => rfl
  | [x] => by simp [modifyLast, h]
  | x :: y :: ys => by simp [modifyLast, modifyLast_map f g h (y :: ys)]

/-- A batch record marks a record or ends a descriptor: no record joins or leaves (R142). -/
@[simp] theorem batchToChain_records (s : State) : (batchToChain s).records = s.records := by
  unfold batchToChain State.records
  split
  case h_1 h => rw [modifyLast_map]; intro x; rfl
  case h_2 h => split <;> simp

@[simp] theorem retireRecord_records (d : Disposition) (s : State) :
    (retireRecord d s).records = s.records ++ [d] := by
  simp [State.records]

/-- What is read of the retire buffer depends on the buffer alone. -/
theorem State.records_congr {s t : State} (h : s.retire = t.retire) : s.records = t.records := by
  simp [State.records, h]

/-! ### Drains and departures (R118, R132, R133) -/

@[simp] theorem batchEnd_records (p : PocketIx) (s : State) : (batchEnd p s).records = s.records := by
  unfold batchEnd
  rw [batchToChain_records]
  exact State.records_congr (by simp)

@[simp] theorem closeBatch_records (p : PocketIx) (x : PocketState) (s : State) :
    (closeBatch p x s).records = s.records := by
  unfold closeBatch
  rw [batchEnd_records]
  exact State.records_congr (by simp)

@[simp] theorem closeBatch_pockets (p : PocketIx) (x : PocketState) (s : State) :
    (closeBatch p x s).pockets =
      s.pockets.set p.val { s.pocket p with state := x } p.isLt := by
  simp [closeBatch]

@[simp] theorem drainIfEmpty_records (p : PocketIx) (s : State) :
    (drainIfEmpty p s).records = s.records := by
  unfold drainIfEmpty
  split
  · split <;> simp
  all_goals rfl

/-- A drain changes no more of the pocket table than the drained pocket's state (R132). -/
theorem drainIfEmpty_pocket (p q : PocketIx) (s : State) :
    (drainIfEmpty p s).pocket q =
      { s.pocket q with state := ((drainIfEmpty p s).pocket q).state } ∧
    (q ≠ p → (drainIfEmpty p s).pocket q = s.pocket q) := by
  unfold drainIfEmpty
  split
  · split
    · simp only [State.pocket, closeBatch_pockets, Fin.getElem_fin, Vector.getElem_set]
      split
      case isTrue h =>
        have : p = q := Fin.ext h
        subst this
        simp
      case isFalse h => simp
    · simp
  all_goals simp

@[simp] theorem releaseReservation_records (p : PocketIx) (s : State) :
    (releaseReservation p s).records = s.records := by
  unfold releaseReservation
  rw [drainIfEmpty_records]
  exact State.records_congr (by simp)

/-- A release lowers the in-flight count of its pocket and changes nothing else of the table but that pocket's state (R118, R132). -/
theorem releaseReservation_pocket (p q : PocketIx) (s : State) :
    (releaseReservation p s).pocket q = { s.pocket q with
      state := ((releaseReservation p s).pocket q).state
      inFlight := if q = p then (s.pocket q).inFlight - 1 else (s.pocket q).inFlight } ∧
    (q ≠ p → (releaseReservation p s).pocket q = s.pocket q) := by
  unfold releaseReservation
  have h := drainIfEmpty_pocket p q (s.setPocket p { s.pocket p with
    inFlight := (s.pocket p).inFlight - 1 })
  refine ⟨?_, ?_⟩
  · rw [h.1]
    by_cases e : q = p
    · subst e
      simp
    · have e' : p ≠ q := fun x => e x.symm
      simp [e, e']
  · intro e
    have e' : p ≠ q := fun x => e x.symm
    rw [h.2 e]
    simp [e']

@[simp] theorem depart_records (o : DispositionOutcome) (l : Letter) (s : State) :
    (depart o l s).records = s.records ++ [s.disposition o l] := by
  unfold depart
  rw [State.records_congr (t := releaseLetter l (retireRecord (s.disposition o l) s)) (by simp)]
  unfold releaseLetter
  split <;> simp

@[simp] theorem depart_transport (o : DispositionOutcome) (l : Letter) (s : State) :
    (depart o l s).transport = { s.transport with
      stall := if s.transit.letters = [] then none else s.transport.stall } := by
  simp [depart]

/-- A departure releases the letter's reservation and changes nothing else of the table but that pocket's state (R118). -/
theorem depart_pocket (o : DispositionOutcome) (l : Letter) (q : PocketIx) (s : State) :
    (depart o l s).pocket q = { s.pocket q with
      state := ((depart o l s).pocket q).state
      inFlight := (s.pocket q).inFlight - (l.reserves q).toNat } ∧
    (l.reserves q = false → (depart o l s).pocket q = s.pocket q) := by
  have hp : (depart o l s).pocket q =
      (releaseLetter l (retireRecord (s.disposition o l) s)).pocket q :=
    pocket_congr (by simp [depart]) q
  have hr : (retireRecord (s.disposition o l) s).pocket q = s.pocket q :=
    pocket_congr (by simp) q
  rw [hp]
  unfold releaseLetter Letter.decision Letter.reserves
  cases l.state with
  | decided d =>
    simp only
    have h := releaseReservation_pocket d.final q (retireRecord (s.disposition o l) s)
    rw [hr] at h
    refine ⟨?_, ?_⟩
    · rw [h.1]
      by_cases e : q = d.final
      · subst e
        simp
      · have e' : (d.final == q) = false := beq_false_of_ne fun x => e x.symm
        simp [e, e']
    · intro e
      apply h.2
      intro x
      subst x
      simp at e
  | collecting => simp [hr]
  | awaitPlan => simp [hr]

/-- The disposition record of a letter depends on its decision's batch and the position counter (R121). -/
theorem disposition_congr {s t : State} (o : DispositionOutcome) (l : Letter)
    (hp : s.transport.position = t.transport.position)
    (hb : ∀ p, (s.pocket p).batch = (t.pocket p).batch) : s.disposition o l = t.disposition o l := by
  have h : ∀ f, s.leavingBatch f = t.leavingBatch f := by
    intro f
    cases f <;> simp [State.leavingBatch, hb]
  simp [State.disposition, hp, h]

/-- PURGE's departures: every letter's record in list order, every reservation released, no fill changed, the monitor stopped (R120). -/
theorem purgeLetters_effect (ls : List Letter) (s : State) (h : s.transit.letters = ls) :
    (purgeLetters ls s).transit = { s.transit with letters := [] } ∧
    (purgeLetters ls s).records = s.records ++ ls.map (s.disposition .purged) ∧
    (∀ p, (purgeLetters ls s).pocket p = { s.pocket p with
      state := ((purgeLetters ls s).pocket p).state
      inFlight := (s.pocket p).inFlight - ls.countP (Letter.reserves p) }) ∧
    (purgeLetters ls s).transport = { s.transport with
      stall := if ls = [] then s.transport.stall else none } := by
  induction ls generalizing s with
  | nil =>
    refine ⟨?_, by simp [purgeLetters], by simp [purgeLetters], by simp [purgeLetters]⟩
    simp [purgeLetters, ← h]
  | cons l ls ih =>
    have hb : ∀ p, ((depart .purged l (s.setLetters ls)).pocket p).batch = (s.pocket p).batch := by
      intro p
      rw [(depart_pocket .purged l p (s.setLetters ls)).1]
      simp [pocket_congr (s := s.setLetters ls) (t := s) (by simp) p]
    have := ih (depart .purged l (s.setLetters ls)) (by simp)
    obtain ⟨h1, h2, h3, h4⟩ := this
    unfold purgeLetters
    refine ⟨?_, ?_, ?_, ?_⟩
    · rw [h1]
      simp
    · rw [h2, depart_records, State.records_congr (s := s.setLetters ls) (t := s) (by simp),
        disposition_congr (s := s.setLetters ls) (t := s) _ l (by simp)
          (fun p => by rw [pocket_congr (s := s.setLetters ls) (t := s) (by simp) p]),
        List.append_assoc, List.map_cons, List.singleton_append]
      congr 2
      apply List.map_congr_left
      intro x _
      exact disposition_congr _ _ (by simp) hb
    · intro p
      rw [h3]
      have hd := (depart_pocket .purged l p (s.setLetters ls)).1
      rw [pocket_congr (s := s.setLetters ls) (t := s) (by simp) p] at hd
      rw [hd]
      simp only [List.countP_cons]
      cases Letter.reserves p l
      · simp
      · simp
        omega
    · rw [h4]
      cases ls <;> simp

end Sys2Proof.Machine
end

