-- ==== Sys2Proof/Laws/Formats.lean ====
section
/-! SUPPORT. What the readings and the words of chapter 10 are, field by field: one lemma for each definition whose text is not already its statement. -/

namespace Sys2Proof.Laws

open Sys2Proof Sys2Proof.Machine

/-! ### Bits, bytes and the CRC -/

theorem field_zero {n : Nat} (v : BitVec n) (h : n ≤ 32) : field v.toNat 0 = v.setWidth 32 := by
  have : v.toNat < 2 ^ 32 := Nat.lt_of_lt_of_le v.isLt (Nat.pow_le_pow_right (by decide) h)
  apply BitVec.eq_of_toNat_eq
  simp [field]

theorem byteAt_slice (bs : List Byte) {n k : Nat} (i : Nat) (h : k < n) :
    byteAt ((bs.drop i).take n) k = byteAt bs (i + k) := by
  unfold byteAt
  simp [List.getD_eq_getElem?_getD, h]

theorem crc16_append (bs : List Byte) (b : Byte) :
    crc16 (bs ++ [b]) = crcByte (crc16 bs) b := by
  unfold crc16
  rw [List.foldl_append]
  rfl

theorem le16At_lt (bs : List Byte) (i : Nat) : le16At bs i < 65536 := by
  have h1 := (bs.getD i 0#8).isLt
  have h2 := (bs.getD (i + 1) 0#8).isLt
  unfold le16At byteAt
  omega

/-! ### Command words (10.3) -/

theorem Command.word_opcode (c : Command) : c.word.extractLsb' 0 8 = c.opcode := by
  have h := fun i => BitVec.getLsbD_append (x := c.argument) (y := c.opcode) (i := i)
  apply BitVec.eq_of_getLsbD_eq
  intro i hi
  simp only [BitVec.getLsbD_extractLsb', hi, decide_true, Bool.true_and]
  exact (h (0 + i)).trans (by simp [hi])

theorem Command.word_argument (c : Command) : c.word.extractLsb' 8 24 = c.argument := by
  have h := fun i => BitVec.getLsbD_append (x := c.argument) (y := c.opcode) (i := i)
  apply BitVec.eq_of_getLsbD_eq
  intro i hi
  simp only [BitVec.getLsbD_extractLsb', hi, decide_true, Bool.true_and]
  exact (h (8 + i)).trans (by simp)

/-! ### Lookups, levels and notices -/

theorem decideWatch_eq_some_iff (s : State) (l : Letter) :
    s.decideWatch = some l ↔ ∃ before after, s.transit.letters = before ++ l :: after ∧
      l.state = .collecting ∧ ∀ x ∈ before, x.state ≠ .collecting := by
  simp only [State.decideWatch, List.find?_eq_some_iff_append, Letter.collecting, beq_iff_eq]
  constructor
  · rintro ⟨h, as, bs, h1, h2⟩
    exact ⟨as, bs, h1, h, by simpa using h2⟩
  · rintro ⟨as, bs, h1, h, h2⟩
    exact ⟨h, as, bs, h1, by simpa using h2⟩

theorem letterBySlot_eq_some_iff (s : State) (slot : BitVec 8) (l : Letter) :
    s.letterBySlot slot = some l ↔ ∃ before after, s.transit.letters = before ++ l :: after ∧
      slotOf l.tag = slot ∧ ∀ x ∈ before, slotOf x.tag ≠ slot := by
  simp only [State.letterBySlot, List.find?_eq_some_iff_append, beq_iff_eq]
  constructor
  · rintro ⟨h, as, bs, h1, h2⟩
    exact ⟨as, bs, h1, h, by simpa using h2⟩
  · rintro ⟨as, bs, h1, h, h2⟩
    exact ⟨h, as, bs, h1, by simpa using h2⟩

theorem holdReject_eq (s : State) : s.holdReject =
    (s.plan.layout.isSome && (s.pocket 0).capacity.any fun c => decide (c ≤ (s.pocket 0).fill)) := by
  show s.holdReject = (s.plan.layout.isSome && s.pockets[0].capacity.any _)
  unfold State.holdReject State.pocket
  cases s.plan.layout <;> cases s.pockets[0].capacity <;> rfl

theorem feedHoldNotice_eq (s : State) : s.feedHoldNotice =
    ⟨.feedHold, 0#8, if s.holdLevel then 1#4 else 0#4, 0#4,
      BitVec.ofNat 16 ((s.transport.line != .running).toNat + 2 * s.transport.occupancy.toNat +
        4 * s.holdReject.toNat), 0#32, 0#24⟩ := by
  unfold State.feedHoldNotice State.holdConditions State.holdLine
  cases s.holdLevel <;> rfl

theorem ackNotice_eq (r : CmdResult) : ackNotice r =
    ⟨.cmdAck, r.opcode, BitVec.ofNat 4 r.result.code, 0#4,
      BitVec.ofNat 16 (32768 * r.sweepCancelled.toNat + (r.loadCause.map LoadCause.code).getD 0),
      r.arg, 0#24⟩ := by
  unfold ackNotice
  cases r.loadCause <;> rfl

theorem atMemory_chain_iff (s : State) : s.atMemory .chain = true ↔ ∃ g, s.port = some g ∧
    g.job ∈ [Job.chainDesc, .chainReread, .chainRecord, .chainCompletion] := by
  unfold State.atMemory
  cases h : s.port with
  | none => simp
  | some g => cases hg : g.job <;> simp [hg, Job.requester]

/-! ### Entry and decode records (10.4) -/

theorem entryOf_eq_some_iff (first second : Word) (e : Entry) : entryOf first second = some e ↔
    bitsAt first 3 29 = 0 ∧ bitsAt second 16 16 = 0 ∧
    ∃ c, (bitsAt first 0 2, c) ∈ [(0, LengthClass.short), (1, .normal), (2, .long)] ∧
      e = ⟨second.extractLsb' 0 16, c, bitAt first 2⟩ := by
  unfold entryOf
  by_cases h : bitsAt first 3 29 = 0 ∧ bitsAt second 16 16 = 0
  · simp only [h, and_self, if_true, true_and, Option.map_eq_some_iff, entryTag]
    constructor
    · rintro ⟨c, h1, rfl⟩
      refine ⟨c, ?_, rfl⟩
      unfold lengthClassOf at h1
      split at h1 <;> simp_all
    · rintro ⟨c, h1, rfl⟩
      refine ⟨c, ?_, rfl⟩
      simp at h1
      rcases h1 with ⟨h1, rfl⟩ | ⟨h1, rfl⟩ | ⟨h1, rfl⟩ <;> simp [h1, lengthClassOf]
  · simp only [h, if_false]
    exact ⟨(fun h => nomatch h), fun ⟨h1, h2, _⟩ => absurd ⟨h1, h2⟩ h⟩

theorem recordMalformed_iff (st : StationIx) (ws : List Word) : recordMalformed st ws = true ↔
    bitsAt (recordWord ws 0) 16 2 ≠ st.val ∨ 4 ≤ bitsAt (recordWord ws 0) 18 3 ∨
    bitsAt (recordWord ws 0) 24 8 ≠ 0 ∨ bitsAt (recordWord ws 7) 16 16 ≠ 0 ∨
    (bitsAt (recordWord ws 0) 18 3 = 2 ∧ bitAt (recordWord ws 1) 0 = false) := by
  unfold recordMalformed recordStation recordKind
  generalize bitsAt (recordWord ws 0) 16 2 = a
  generalize bitsAt (recordWord ws 0) 18 3 = b
  generalize bitsAt (recordWord ws 0) 24 8 = c
  generalize bitsAt (recordWord ws 7) 16 16 = d
  simp only [Bool.or_eq_true, decide_eq_true_eq, Bool.and_eq_true, Bool.not_eq_true',
    Nat.lt_iff_add_one_le]
  tauto

theorem recordRead_body_iff (st : StationIx) (minGrade : Nat) (ws : List Word) (b : ReadBody) :
    (recordRead st minGrade ws).map Read.body = some b ↔
      (recordKind ws = 0 ∧ b = .account (recordKey ws) (recordCheck ws)) ∨
      (recordKind ws = 1 ∧ b = .endorse ((recordWord ws 1).extractLsb' 0 8)) ∨
      (recordKind ws = 2 ∧ b = .forward) := by
  simp only [recordRead, Option.map_map, Function.comp_def, Option.map_id', recordBody]
  generalize recordKind ws = k
  match k with
  | 0 => simp [eq_comm]
  | 1 => simp [eq_comm]
  | 2 => simp [eq_comm]
  | k + 3 => simp

theorem validKey_eq_some_iff (r : Read) (k : AccountKey) : r.validKey = some k ↔
    r.valid = true ∧ ∃ check, r.body = .account k check := by
  unfold Read.validKey
  split <;> simp_all

/-! ### Disposition records (R121, R122, R175; 10.6) -/

theorem disposition_decided {s : State} {o : DispositionOutcome} {l : Letter} {d : Decision}
    (h : l.state = .decided d) : s.disposition o l =
      { tag := l.tag, outcome := o, intended := some d.intended, final := some d.final
        cause := d.cause, viaPartner := d.viaPartner
        ruleIndex := if d.cause = .rule then d.ruleIndex else none
        batch := (s.pocket d.final).batch, accountKey := l.accountKey
        reasonClass := l.reasonClass, forwardPresent := l.forwardPresent
        readsTaken := l.reads.length, reported := l.reported, lateReads := l.lateReads
        overrun := l.overrun, lengthClass := l.lengthClass, double := l.double
        close := l.close, entryPos := l.entryPos, leavePos := s.transport.position } := by
  simp only [State.disposition, Letter.leavingDecision, Letter.decision, Letter.leavingSummary, h,
    State.leavingBatch]

theorem disposition_undecided {s : State} {o : DispositionOutcome} {l : Letter}
    (h : l.state = .collecting ∨ l.state = .awaitPlan) : s.disposition o l =
      { tag := l.tag, outcome := o, intended := none
        final := if o = .lateDecision then some 0 else none
        cause := if o = .lateDecision then .lateDecision else .none
        viaPartner := false, ruleIndex := none
        batch := if o = .lateDecision then (s.pocket 0).batch else 0#16
        accountKey := (summarize l.reads).key, reasonClass := (summarize l.reads).reason
        forwardPresent := (summarize l.reads).forward
        readsTaken := l.reads.length, reported := l.reported, lateReads := l.lateReads
        overrun := l.overrun, lengthClass := l.lengthClass, double := l.double
        close := l.close, entryPos := l.entryPos, leavePos := s.transport.position } := by
  rcases h with h | h <;> cases o <;>
    simp [State.disposition, Letter.leavingDecision, Letter.decision, Letter.leavingSummary, h,
      State.leavingBatch]

theorem dispositionWord_pockets (d : Disposition) : d.word 1 =
    field ((d.intended.map Fin.val).getD 0xFF) 0 ||| field ((d.final.map Fin.val).getD 0xFF) 8 |||
      field (d.ruleIndex.getD 0) 16 ||| field d.reasonClass.toNat 24 := by
  show field (pocketCode d.intended) 0 ||| field (pocketCode d.final) 8 ||| _ ||| _ = _
  cases d.intended <;> cases d.final <;> rfl

theorem reportedCode_field (r : Vector Bool 4) : field (reportedCode r) 20 =
    flag r[0] 20 ||| flag r[1] 21 ||| flag r[2] 22 ||| flag r[3] 23 := by
  unfold reportedCode
  cases r[0] <;> cases r[1] <;> cases r[2] <;> cases r[3] <;> decide

theorem dispositionWord_key {d : Disposition} {key : AccountKey} (h : d.accountKey = some key) :
    d.word 5 = key.extractLsb' 0 32 ∧ d.word 6 = key.extractLsb' 32 32 ∧
      d.word 7 = (key.extractLsb' 64 4).setWidth 32 := by
  refine ⟨?_, ?_, ?_⟩ <;> simp only [Disposition.word, keyBits, h, field] <;>
    apply BitVec.eq_of_toNat_eq <;> simp

theorem dispositionWord_noKey {d : Disposition} (h : d.accountKey = none) :
    d.word 5 = 0#32 ∧ d.word 6 = 0#32 ∧ d.word 7 = 0#32 := by
  refine ⟨?_, ?_, ?_⟩ <;> simp [Disposition.word, keyBits, h, field]

/-! ### Windows and regions (R2 to R6) -/

theorem regionOf_control {s : State} {w : Word} {off : Nat} (h : s.inControlArea w = true)
    (hw : w.toNat = controlBase s.cb + off) : s.regionOf w = controlRegion off := by
  unfold State.regionOf
  rw [if_pos h, hw, Nat.add_sub_cancel_left]

theorem regionOf_ordinary {s : State} {w : Word} (h : s.inControlArea w = false)
    (hx : ∀ x ∈ s.layoutWindows, x.contains w.toNat = false) : s.regionOf w = .ordinary := by
  unfold State.regionOf
  rw [h, if_neg (by simp), List.find?_eq_none.mpr (by simpa using hx)]

theorem regionOf_window {s : State} {w : Word} {x : Window} (h : s.inControlArea w = false)
    (hx : x ∈ s.layoutWindows) (hc : x.contains w.toNat = true)
    (hu : ∀ y ∈ s.layoutWindows, y.contains w.toNat = true → y = x) :
    s.regionOf w = .window x ((w.toNat - x.base) / 4) := by
  unfold State.regionOf
  rw [h, if_neg (by simp)]
  cases hf : s.layoutWindows.find? (·.contains w.toNat) with
  | none => exact absurd hc (List.find?_eq_none.mp hf x hx)
  | some y => rw [hu y (List.mem_of_find?_eq_some hf) (by simpa using List.find?_some hf)]

/-! ### Status words and pocket words (10.3) -/

theorem holdConditions_field (s : State) : field s.holdConditions 8 =
    flag (s.transport.line != .running) 8 ||| flag s.transport.occupancy 9 |||
      flag s.holdReject 10 := by
  unfold State.holdConditions State.holdLine
  cases (s.transport.line != .running) <;> cases s.transport.occupancy <;> cases s.holdReject <;>
    rfl

theorem ringStateCode_eq (s : State) : s.ringStateCode =
    if s.plan.layout = none then 0 else if s.notice.ringFault then 2 else 1 := by
  unfold State.ringStateCode
  cases s.plan.layout <;> simp

theorem shownFault_eq (c : Chain) :
    c.shownFault = if c.state = .fault then c.fault.code else 0 := by
  unfold Chain.shownFault
  cases c.state <;> simp

theorem statusWord_station (s : State) (st : StationIx) : statusWord s (13 + st.val) =
    field (s.station st).framing.code 0 ||| field (s.station st).expectation.code 4 |||
      field (s.station st).misses 8 ||| field (s.station st).rejects 16 := by
  match st with
  | 0 => rfl
  | 1 => rfl
  | 2 => rfl
  | 3 => rfl

theorem statusWord_reserved (s : State) {k : Nat} (h : 17 ≤ k) : statusWord s k = 0#32 := by
  unfold statusWord
  split <;> first | omega | rfl

theorem targetCode_field (x : PocketState) :
    field x.targetCode 2 = flag (x == .draining .disabled) 2 := by
  cases x with
  | draining t => cases t <;> rfl
  | disabled => rfl
  | opened => rfl
  | closed => rfl

/-! ### The plan image (10.5) -/

theorem stationPresent_iff (l : Layout) (st : StationIx) :
    l.stationPresent st = true ↔ 32768 ≤ stationFieldAt l.payload st := by
  have h := le16At_lt l.payload (24 + 6 * st.val)
  simp only [Layout.stationPresent, Layout.stationField, stationFieldAt, beq_iff_eq]
  omega

theorem pocketBlockRecords_eq (bs : List Byte) (j P : Nat) : pocketBlockRecords bs j P =
    ((List.range 7).filter fun i => decide (7 * j + i < P)).map fun i =>
      ⟨le16At bs (8 * i), le16At bs (8 * i + 2),
        if byteAt bs (8 * i + 4) = 0 then none else some (Fin.ofNat 64 (byteAt bs (8 * i + 4))),
        decide (byteAt bs (8 * i + 5) = 0)⟩ := by
  refine List.map_congr_left fun i _ => ?_
  have h : ∀ k < 8, byteAt (pocketRecordBytes bs i) k = byteAt bs (8 * i + k) :=
    fun k hk => byteAt_slice bs _ hk
  simp only [pocketRecordOf, le16At, h 0 (by omega), h 1 (by omega), h 2 (by omega),
    h 3 (by omega), h 4 (by omega), h 5 (by omega), Nat.add_zero, Nat.add_assoc, Nat.reduceAdd]

theorem ruleOf_isSome {bs : List Byte} {i j P N : Nat} (h : ruleBlockFailure bs j P N = none)
    (hi : i < 5) (hN : 5 * j + i < N) : (ruleOf (ruleBytes bs i) P).isSome = true := by
  have := List.find?_eq_none.mp (Option.map_eq_none_iff.mp h) i (List.mem_range.mpr hi)
  simpa [hN, Option.isSome_iff_ne_none] using this

theorem ruleOf_eq {bs : List Byte} {i P : Nat} (h : (ruleOf (ruleBytes bs i) P).isSome = true) :
    ruleOf (ruleBytes bs i) P = some
      ⟨match byteAt bs (12 * i) % 8 with
        | 0 => .any
        | 1 => .district
        | 2 => .cycle
        | 3 => .account
        | _ => .mailBatch,
        match byteAt bs (12 * i) / 16 % 4 with
        | 0 => .any
        | 1 => .present
        | _ => .absent,
        Fin.ofNat 64 (byteAt bs (12 * i + 1)), BitVec.ofNat 16 (le16At bs (12 * i + 2)),
        le32At bs (12 * i + 4), le32At bs (12 * i + 8)⟩ := by
  have h0 : ∀ k < 12, byteAt (ruleBytes bs i) k = byteAt bs (12 * i + k) :=
    fun k hk => byteAt_slice bs _ hk
  unfold ruleOf at h ⊢
  simp only [le16At, le32At, h0 0 (by omega), h0 1 (by omega), h0 2 (by omega), h0 3 (by omega),
    h0 4 (by omega), h0 5 (by omega), h0 6 (by omega), h0 7 (by omega), h0 8 (by omega),
    h0 9 (by omega), h0 10 (by omega), h0 11 (by omega), Nat.add_zero, Nat.add_assoc,
    Nat.reduceAdd] at h ⊢
  split at h
  · rename_i hc
    rw [if_pos hc]
    generalize byteAt bs (12 * i) % 8 = a at h ⊢
    generalize byteAt bs (12 * i) / 16 % 4 = b at h ⊢
    match a, b with
    | 0, 0 | 0, 1 | 0, 2 | 1, 0 | 1, 1 | 1, 2 | 2, 0 | 2, 1 | 2, 2 | 3, 0 | 3, 1 | 3, 2
    | 4, 0 | 4, 1 | 4, 2 => rfl
    | a + 5, _ => simp [selectorOf] at h; split at h <;> simp_all
    | 0, b + 3 | 1, b + 3 | 2, b + 3 | 3, b + 3 | 4, b + 3 =>
      simp [forwardOf] at h
      try (split at h <;> simp_all)
  · simp at h

theorem blocks_bounds (P N : Nat) : P ≤ 7 * pocketBlocks P ∧ 7 * pocketBlocks P < P + 7 ∧
    N ≤ 5 * ruleBlocks N ∧ 5 * ruleBlocks N < N + 5 := by
  unfold pocketBlocks ruleBlocks
  omega

end Sys2Proof.Laws
end

