-- ==== Sys2Proof/Laws/Resolving.lean ====
section
/-! SUPPORT. What a resolution, and the resolving of several letters, can do to the letters and the pocket table (R96, R105, R108), and what the expiries do (R48, R49, R86). -/

namespace Sys2Proof.Machine

/-! ### One letter and lists of letters -/

@[simp] theorem resolveLetter_tag (plan : Plan) (pk : Pockets) (l : Letter) :
    (resolveLetter plan pk l).2.tag = l.tag := by
  unfold resolveLetter
  split <;> rfl

/-- A resolved letter is no longer COLLECTING (R96). -/
@[simp] theorem resolveLetter_collecting (plan : Plan) (pk : Pockets) (l : Letter) :
    (resolveLetter plan pk l).2.collecting = false := by
  unfold resolveLetter
  split <;> rfl

/-- A reading of a letter that no resolution changes. -/
def Letter.Lasting {α : Type} (f : Letter → α) : Prop :=
  ∀ plan pk l, f (resolveLetter plan pk l).2 = f l

theorem Letter.lasting_tag : Letter.Lasting (·.tag) := resolveLetter_tag

/-- The part of a letter that no resolution changes. -/
theorem Letter.lasting_rest : Letter.Lasting fun l =>
    (l.tag, l.entryPos, l.reads, l.reported, l.lateReads, l.overrun) := by
  intro plan pk l
  unfold resolveLetter
  split <;> rfl

/-- The letters resolved keep their order, and what a resolution does not change. -/
theorem resolveList_map {α : Type} {f : Letter → α} (hf : Letter.Lasting f) (plan : Plan)
    (ready : Letter → Bool) (pk : Pockets) (ls : List Letter) :
    (resolveList plan ready pk ls).2.map f = ls.map f := by
  induction ls generalizing pk with
  | nil => rfl
  | cons l ls ih =>
    unfold resolveList
    split <;> simp [ih, hf plan pk l]

theorem resolveFirst_map {α : Type} {f : Letter → α} (hf : Letter.Lasting f) (plan : Plan)
    (ready : Letter → Bool) (pk : Pockets) (ls : List Letter) :
    (resolveFirst plan ready pk ls).2.map f = ls.map f := by
  induction ls generalizing pk with
  | nil => rfl
  | cons l ls ih =>
    unfold resolveFirst
    split <;> simp [ih, hf plan pk l]

@[simp] theorem resolveList_tags (plan : Plan) (ready : Letter → Bool) (pk : Pockets)
    (ls : List Letter) : (resolveList plan ready pk ls).2.map (·.tag) = ls.map (·.tag) :=
  resolveList_map Letter.lasting_tag plan ready pk ls

@[simp] theorem resolveFirst_tags (plan : Plan) (ready : Letter → Bool) (pk : Pockets)
    (ls : List Letter) : (resolveFirst plan ready pk ls).2.map (·.tag) = ls.map (·.tag) :=
  resolveFirst_map Letter.lasting_tag plan ready pk ls

/-- Letters that are not ready stand, and take no part. -/
theorem resolveList_append (plan : Plan) (ready : Letter → Bool) (pk : Pockets)
    (before after : List Letter) (h : ∀ x ∈ before, ready x = false) :
    resolveList plan ready pk (before ++ after) =
      ((resolveList plan ready pk after).1, before ++ (resolveList plan ready pk after).2) := by
  induction before with
  | nil => rfl
  | cons x xs ih =>
    simp [resolveList, h x (by simp), ih (fun y hy => h y (by simp [hy]))]

/-- Where no letter is ready nothing happens. -/
theorem resolveList_none (plan : Plan) (ready : Letter → Bool) (pk : Pockets)
    (ls : List Letter) (h : ∀ x ∈ ls, ready x = false) :
    resolveList plan ready pk ls = (pk, ls) := by
  have := resolveList_append plan ready pk ls [] h
  simpa [resolveList] using this

/-- The first ready letter is the one that is resolved. -/
theorem resolveFirst_split (plan : Plan) (ready : Letter → Bool) (pk : Pockets)
    (before after : List Letter) (l : Letter) (h : ∀ x ∈ before, ready x = false)
    (hl : ready l = true) :
    resolveFirst plan ready pk (before ++ l :: after) =
      ((resolveLetter plan pk l).1, before ++ (resolveLetter plan pk l).2 :: after) := by
  induction before with
  | nil => simp [resolveFirst, hl]
  | cons x xs ih =>
    simp [resolveFirst, h x (by simp), ih (fun y hy => h y (by simp [hy]))]

/-- Where no letter is ready nothing happens. -/
theorem resolveFirst_none (plan : Plan) (ready : Letter → Bool) (pk : Pockets)
    (ls : List Letter) (h : ∀ x ∈ ls, ready x = false) :
    resolveFirst plan ready pk ls = (pk, ls) := by
  induction ls with
  | nil => rfl
  | cons x xs ih =>
    simp [resolveFirst, h x (by simp), ih (fun y hy => h y (by simp [hy]))]

/-- Resolving never makes a letter COLLECTING. -/
theorem resolveList_collecting_le (plan : Plan) (ready : Letter → Bool) (pk : Pockets)
    (ls : List Letter) :
    (resolveList plan ready pk ls).2.countP Letter.collecting ≤ ls.countP Letter.collecting := by
  induction ls generalizing pk with
  | nil => exact Nat.le_refl _
  | cons l ls ih =>
    unfold resolveList
    split
    · simp only [List.countP_cons, resolveLetter_collecting]
      have := ih (resolveLetter plan pk l).1
      simp
      omega
    · simp only [List.countP_cons]
      have := ih pk
      omega

/-! ### Misses (R86) -/

/-- What a miss counted for station `st` writes (R86). -/
def Station.afterMiss (limit : Nat) (x : Station) : Station :=
  if limit ≤ x.missed.misses then { x.missed with expectation := .degraded } else x.missed

theorem countMiss_station (l : Letter) (s : State) (a b : StationIx) :
    (countMiss l s a).station b =
      if a = b ∧ missCounted l a s = true then (s.station b).afterMiss s.plan.missLimit
      else s.station b := by
  simp only [countMiss]
  split
  case isFalse h => simp [h]
  case isTrue h =>
    split
    case isTrue hl =>
      rw [station_congr (t := s.setStation a { (s.station a).missed with
        expectation := .degraded }) (by simp) b, setStation_station]
      by_cases e : a = b
      · subst e
        simp [h, Station.afterMiss, hl]
      · simp [e]
    case isFalse hl =>
      rw [setStation_station]
      by_cases e : a = b
      · subst e
        simp [h, Station.afterMiss, hl]
      · simp [e]

theorem missCounted_congr {s t : State} (l : Letter) (st : StationIx)
    (h : s.station st = t.station st) : missCounted l st s = missCounted l st t := by
  simp [missCounted, h]

/-- Every station is counted once, by its own context (R86). -/
theorem countMisses_station (l : Letter) (s : State) (st : StationIx) :
    (countMisses l s).station st =
      if missCounted l st s = true then (s.station st).afterMiss s.plan.missLimit
      else s.station st := by
  simp only [countMisses, allStations, List.foldl_cons, List.foldl_nil]
  have h0 := countMiss_station l s 0
  generalize hu : countMiss l s 0 = u at *
  have hup : u.plan = s.plan := by simp [← hu]
  have h1 := countMiss_station l u 1
  generalize hv : countMiss l u 1 = v at *
  have hvp : v.plan = s.plan := by simp [← hv, hup]
  have h2 := countMiss_station l v 2
  generalize hw : countMiss l v 2 = w at *
  have hwp : w.plan = s.plan := by simp [← hw, hvp]
  have h3 := countMiss_station l w 3
  rw [h3]
  have e : ∀ x : StationIx, x = 0 ∨ x = 1 ∨ x = 2 ∨ x = 3 := by decide
  rcases e st with e | e | e | e <;> subst e
  · simp [h2, h1, h0]
  · have := missCounted_congr l 1 (s := u) (t := s) (by simp [h0])
    simp [h2, h1, h0, this, hup]
  · have := missCounted_congr l 2 (s := v) (t := s) (by simp [h1, h0])
    simp [h2, h1, h0, this, hvp]
  · have := missCounted_congr l 3 (s := w) (t := s) (by simp [h2, h1, h0])
    simp [h2, h1, h0, this, hwp]

/-! ### The expiries of an advance (R48) -/

/-- The points of a letter depend on the counter and the layout alone. -/
theorem reached_congr {s t : State} (hp : s.transport.position = t.transport.position)
    (hl : s.plan.layout = t.plan.layout) (l : Letter) :
    s.lostReached l = t.lostReached l ∧ s.decideReached l = t.decideReached l := by
  simp [State.lostReached, State.decideReached, State.layoutNat, hp, hl]

/-- The lost expiries leave a tail of the list, whose oldest letter has not reached its lost point. -/
theorem takeLost_letters (ls : List Letter) (s : State) (h : s.transit.letters = ls) :
    (takeLost ls s).transit.letters <:+ ls ∧
    (takeLost ls s).transit = { s.transit with
      letters := (takeLost ls s).transit.letters } ∧
    (takeLost ls s).transport.position = s.transport.position ∧
    ∀ l, (takeLost ls s).transit.letters.head? = some l → s.lostReached l = false := by
  induction ls generalizing s with
  | nil =>
    refine ⟨by simp [takeLost, h], rfl, rfl, ?_⟩
    simp [takeLost, h]
  | cons l rest ih =>
    unfold takeLost
    split
    case isTrue hr =>
      have hx : (expireLost l rest s).transit = { s.transit with letters := rest } := by
        simp [expireLost]
      have hp : (expireLost l rest s).transport.position = s.transport.position := by
        simp [expireLost]
      obtain ⟨h1, h2, h3, h4⟩ := ih (expireLost l rest s) (by rw [hx])
      refine ⟨h1.trans (List.suffix_cons _ _), ?_, h3.trans hp, ?_⟩
      · rw [h2, hx]
      · intro x hxx
        rw [← h4 x hxx]
        exact (reached_congr hp.symm (by simp) x).1
    case isFalse hr =>
      refine ⟨by rw [h], rfl, rfl, ?_⟩
      intro x hx
      rw [h] at hx
      simp only [List.head?_cons, Option.some.injEq] at hx
      subst hx
      simpa using hr

/-- Each decide expiry leaves one COLLECTING letter fewer. -/
theorem decideDue_collecting (s : State) :
    (decideDue s = s ∧ ∀ l, s.decideWatch = some l → s.decideReached l = false) ∨
    (decideDue s).transit.letters.countP Letter.collecting <
      s.transit.letters.countP Letter.collecting := by
  unfold decideDue
  cases hw : s.decideWatch with
  | none => simp
  | some l =>
    simp only
    by_cases hr : s.decideReached l = true
    · right
      rw [if_pos hr]
      unfold State.decideWatch at hw
      obtain ⟨hc, before, after, hl, hb⟩ := List.find?_eq_some_iff_append.1 hw
      have hb' : ∀ x ∈ before, x.collecting = false := fun x hx => by simpa using hb x hx
      have h1 : (s.resolveOne Letter.collecting).transit.letters =
          before ++ (resolveLetter s.plan s.pockets l).2 :: after := by
        simp only [State.resolveOne, hl, resolveFirst_split _ _ _ _ _ _ hb' hc]
      have h2 : (countMisses l (s.resolveOne Letter.collecting)).transit.letters =
          before ++ (resolveLetter s.plan s.pockets l).2 :: after := by
        simp only [countMisses_frame, h1]
      have h3 : (before ++ (resolveLetter s.plan s.pockets l).2 :: after).countP Letter.collecting <
          s.transit.letters.countP Letter.collecting := by
        rw [hl]
        simp [hc]
      simp only [expireDecide]
      split
      · refine Nat.lt_of_le_of_lt ?_ h3
        have := resolveList_collecting_le
          (countMisses l (s.resolveOne Letter.collecting)).plan
          (countMisses l (s.resolveOne Letter.collecting)).readyNow
          (countMisses l (s.resolveOne Letter.collecting)).pockets
          (countMisses l (s.resolveOne Letter.collecting)).transit.letters
        rw [h2] at this
        simpa only [resolveReady, State.resolveWhere, h2] using this
      · rw [h2]
        exact h3
    · left
      rw [if_neg hr]
      refine ⟨rfl, ?_⟩
      intro x hx
      cases hx
      simpa using hr

/-- A decide expiry leaves everything of the list but what a resolution changes in its letters. -/
theorem decideDue_map {α : Type} {f : Letter → α} (hf : Letter.Lasting f) (s : State) :
    (decideDue s).transit.letters.map f = s.transit.letters.map f ∧
    (decideDue s).transit = { s.transit with letters := (decideDue s).transit.letters } := by
  unfold decideDue
  split
  case h_2 => exact ⟨rfl, rfl⟩
  case h_1 l hw =>
    split
    case isFalse => exact ⟨rfl, rfl⟩
    case isTrue hr =>
      have h0 : (s.resolveOne Letter.collecting).transit.letters.map f =
          s.transit.letters.map f := resolveFirst_map hf _ _ _ _
      have ht : (countMisses l (s.resolveOne Letter.collecting)).transit =
          (s.resolveOne Letter.collecting).transit := by simp
      simp only [expireDecide]
      split
      · refine ⟨?_, ?_⟩
        · refine Eq.trans ?_ h0
          simp only [resolveReady, State.resolveWhere]
          rw [resolveList_map hf, ht]
        · simp only [resolveReady, State.resolveWhere, ht]
          rfl
      · refine ⟨?_, ?_⟩
        · rw [ht, h0]
        · rw [ht]
          rfl

/-- The decide expiries leave no watched letter that has reached its decide point (R48). -/
theorem takeDecides_effect {α : Type} {f : Letter → α} (hf : Letter.Lasting f) (n : Nat)
    (s : State) (hn : s.transit.letters.countP Letter.collecting ≤ n) :
    (takeDecides n s).transit.letters.map f = s.transit.letters.map f ∧
    (takeDecides n s).transit = { s.transit with
      letters := (takeDecides n s).transit.letters } ∧
    ∀ l, (takeDecides n s).decideWatch = some l → s.decideReached l = false := by
  induction n generalizing s with
  | zero =>
    refine ⟨rfl, rfl, ?_⟩
    intro l hl
    unfold takeDecides State.decideWatch at hl
    have hm := List.mem_of_find?_eq_some hl
    have hc := List.find?_some hl
    have : 0 < s.transit.letters.countP Letter.collecting :=
      List.countP_pos_iff.2 ⟨l, hm, hc⟩
    omega
  | succ n ih =>
    unfold takeDecides
    rcases decideDue_collecting s with ⟨he, hq⟩ | hlt
    · rw [he]
      have fixed : ∀ k, takeDecides k s = s := by
        intro k
        induction k with
        | zero => rfl
        | succ k ihk =>
          unfold takeDecides
          rw [he, ihk]
      rw [fixed n]
      exact ⟨rfl, rfl, hq⟩
    · obtain ⟨h1, h2, h3⟩ := ih (decideDue s) (by omega)
      obtain ⟨g1, g2⟩ := decideDue_map hf s
      refine ⟨h1.trans g1, ?_, ?_⟩
      · rw [h2, g2]
      · intro l hl
        rw [← h3 l hl]
        exact (reached_congr (by simp) (by simp) l).2

/-- The lost expiries stop the monitor with the last letter, and change no fill (R50, R51). -/
theorem takeLost_transport (ls : List Letter) (s : State) (h : s.transit.letters = ls) :
    (takeLost ls s).transport = { s.transport with
      stall := if (takeLost ls s).transit.letters = [] ∧ ls ≠ [] then none
        else s.transport.stall } ∧
    ∀ p, ((takeLost ls s).pocket p).fill = (s.pocket p).fill := by
  induction ls generalizing s with
  | nil => simp [takeLost]
  | cons l rest ih =>
    unfold takeLost
    split
    case isTrue hr =>
      have hx : (expireLost l rest s).transit = { s.transit with letters := rest } := by
        simp [expireLost]
      have hy : (expireLost l rest s).transport = { s.transport with
          stall := if rest = [] then none else s.transport.stall } := by
        simp [expireLost]
      obtain ⟨h1, h2⟩ := ih (expireLost l rest s) (by rw [hx])
      refine ⟨?_, ?_⟩
      · rw [h1, hy]
        cases rest with
        | nil =>
          simp [takeLost, hx]
        | cons a b => simp
      · intro p
        rw [h2]
        unfold expireLost
        rw [pocket_congr (t := depart .lost l (s.setLetters rest)) (by simp) p,
          (depart_pocket .lost l p _).1]
        simp [pocket_congr (s := s.setLetters rest) (t := s) (by simp) p]
    case isFalse hr => simp [h]

/-- Two changes of nothing but the in-flight count make one. -/
theorem Pocket.inFlight_trans {a b c : Pocket} (h1 : b = { a with inFlight := b.inFlight })
    (h2 : c = { b with inFlight := c.inFlight }) : c = { a with inFlight := c.inFlight } := by
  cases a; cases b; cases c
  simp_all

/-- A resolution changes no more of a pocket than its in-flight count (R105). -/
theorem resolveLetter_pocket (plan : Plan) (pk : Pockets) (l : Letter) (p : PocketIx) :
    (resolveLetter plan pk l).1[p] = { pk[p] with
      inFlight := (resolveLetter plan pk l).1[p].inFlight } := by
  unfold resolveLetter
  split
  · rfl
  all_goals
    simp only [reservePocket, Fin.getElem_fin, Vector.getElem_set]
    split
    · next e => simp [e]
    · rfl

theorem resolveList_pocket (plan : Plan) (ready : Letter → Bool) (pk : Pockets)
    (ls : List Letter) (p : PocketIx) :
    (resolveList plan ready pk ls).1[p] = { pk[p] with
      inFlight := (resolveList plan ready pk ls).1[p].inFlight } := by
  induction ls generalizing pk with
  | nil => rfl
  | cons l ls ih =>
    unfold resolveList
    split
    · exact Pocket.inFlight_trans (resolveLetter_pocket plan pk l p) (ih _)
    · exact ih pk

theorem resolveFirst_pocket (plan : Plan) (ready : Letter → Bool) (pk : Pockets)
    (ls : List Letter) (p : PocketIx) :
    (resolveFirst plan ready pk ls).1[p] = { pk[p] with
      inFlight := (resolveFirst plan ready pk ls).1[p].inFlight } := by
  induction ls generalizing pk with
  | nil => rfl
  | cons l ls ih =>
    unfold resolveFirst
    split
    · exact resolveLetter_pocket plan pk l p
    · exact ih pk

theorem resolveWhere_pocket (s : State) (ready : Letter → Bool) (p : PocketIx) :
    (s.resolveWhere ready).pocket p = { s.pocket p with
      inFlight := ((s.resolveWhere ready).pocket p).inFlight } :=
  resolveList_pocket s.plan ready s.pockets s.transit.letters p

theorem resolveOne_pocket (s : State) (ready : Letter → Bool) (p : PocketIx) :
    (s.resolveOne ready).pocket p = { s.pocket p with
      inFlight := ((s.resolveOne ready).pocket p).inFlight } :=
  resolveFirst_pocket s.plan ready s.pockets s.transit.letters p

/-- A decide expiry changes no more of a pocket than its in-flight count (R49, R105). -/
theorem decideDue_pocket (s : State) (p : PocketIx) :
    (decideDue s).pocket p = { s.pocket p with
      inFlight := ((decideDue s).pocket p).inFlight } := by
  unfold decideDue
  split
  case h_2 => rfl
  case h_1 l _ =>
    split
    case isFalse => rfl
    case isTrue =>
      have h0 := resolveOne_pocket s Letter.collecting p
      have h1 : (countMisses l (s.resolveOne Letter.collecting)).pocket p =
          (s.resolveOne Letter.collecting).pocket p := pocket_congr (by simp) p
      rw [← h1] at h0
      simp only [expireDecide]
      split
      · exact Pocket.inFlight_trans h0 (resolveWhere_pocket _ _ p)
      · exact h0

theorem takeDecides_pocket (n : Nat) (s : State) (p : PocketIx) :
    (takeDecides n s).pocket p = { s.pocket p with
      inFlight := ((takeDecides n s).pocket p).inFlight } := by
  induction n generalizing s with
  | zero => rfl
  | succ n ih =>
    exact Pocket.inFlight_trans (decideDue_pocket s p) (ih _)

/-! ### The expiries of an advance as the rows LOST_EXPIRY and DECIDE_EXPIRY (R48) -/

theorem execInTurn_append (cs ds : List Instr) (s t : State) (h : execInTurn cs s = .next t) :
    execInTurn (cs ++ ds) s = execInTurn ds t := by
  induction cs generalizing s with
  | nil =>
    cases h
    rfl
  | cons c cs ih =>
    simp only [execInTurn, List.cons_append] at h ⊢
    split at h
    · exact ih _ h
    · cases h
    · cases h

/-- As many LOST_EXPIRY as there are letters are the lost expiries of an advance. -/
theorem execInTurn_lostExpiry (ls : List Letter) (n : Nat) (s : State)
    (hr : s.resetLow = false) (h : s.transit.letters = ls) (hn : ls.length ≤ n) :
    execInTurn (List.replicate n .lostExpiry) s = .next (takeLost ls s) := by
  induction n generalizing ls s with
  | zero =>
    have : ls = [] := List.eq_nil_of_length_eq_zero (Nat.le_zero.1 hn)
    subst this
    rfl
  | succ n ih =>
    have fixed : lostExpiry s = s →
        ∀ k, execInTurn (List.replicate k .lostExpiry) s = .next s := by
      intro e k
      induction k with
      | zero => rfl
      | succ k ihk =>
        simp only [List.replicate_succ, execInTurn, exec, execLostExpiry, e]
        exact ihk
    cases ls with
    | nil => exact fixed (by simp [lostExpiry, hr, h]) (n + 1)
    | cons l rest =>
      by_cases hl : s.lostReached l = true
      · have e : lostExpiry s = expireLost l rest s := by simp [lostExpiry, hr, h, hl]
        simp only [List.replicate_succ, execInTurn, exec, execLostExpiry, e, takeLost, if_pos hl]
        exact ih rest _ (by simpa [expireLost] using hr) (by simp [expireLost]) (Nat.le_of_succ_le_succ hn)
      · simp only [takeLost, if_neg hl]
        exact fixed (by simp [lostExpiry, hr, h, hl]) (n + 1)

/-- DECIDE_EXPIRY `n` times is `n` decide expiries. -/
theorem execInTurn_decideExpiry (n : Nat) (s : State) (hr : s.resetLow = false) :
    execInTurn (List.replicate n .decideExpiry) s = .next (takeDecides n s) := by
  induction n generalizing s with
  | zero => rfl
  | succ n ih =>
    have e : decideExpiry s = decideDue s := by simp [decideExpiry, hr]
    simp only [List.replicate_succ, execInTurn, exec, execDecideExpiry, e, takeDecides]
    exact ih _ (by simpa using hr)

end Sys2Proof.Machine
end

