-- ==== Sys2Proof/WellFormed.lean ====
section
/-! DEFINITION. Which commands are well formed: the rings have at most 1024 and 256 records (R27), pocket 0 never drains (R128), and a BAD_COMMAND is a command-word write that fails check 1, 2 or 3 of R157. -/

namespace Sys2Proof

/-- Words in the largest induction ring: 1024 records of two words (R27, R58). -/
def maxInductionWords : Nat := 2048

/-- Words in the largest station ring: 256 slots of eight words (R27, R73). -/
def maxStationWords : Nat := 2048

/-- The operands of a command lie where its rule allows them. -/
def Instr.wf : Instr → Bool
  | .inductionRingWrite offset _ _ => decide (offset < maxInductionWords)
  | .stationRingWrite _ offset _ _ => decide (offset < maxStationWords)
  | .drainComplete p => p != 0
  | .badCommand word enables => (acceptCommandWord word enables).isNone
  | .resetAssert | .resetRelease _ _ | .encAdvance | .stallExpiry | .lostExpiry | .decideExpiry
  | .backplaneAccess _ | .gateDispatch _ | .arbiterGrant | .passthroughDone _
  | .planReadDone _ | .chainDescReadDone _ | .chainRereadDone _ | .chainRecordWordDone _
  | .chainCompletionDone _ | .noticeWordWriteDone _
  | .loadPlan _ | .loadAbort | .start | .stop | .purge
  | .sweepFirst _ | .sweepLast _ | .sweepExclude _ | .sweepGo
  | .pocketOpen _ | .pocketDisable _ | .pocketEnable _
  | .stationEnable _ | .stationDisable _ | .stationRestart _
  | .chainStart | .chainResume | .chainStop | .chainFlush
  | .setNoticeMask _ | .setAttnMode _ | .statusClear
  | .noticeConsumerIndex _ _ | .chainBasePointer _ _ | .chainLastPointer _ _ => true

end Sys2Proof
end

