-- ==== Sys2Proof/Tests/Slice0.lean ====
section
/-! SUPPORT. The model's own tests: ill-formed commands refused, the manual's example words and values, small steps, and for every obligation with hypotheses a state and operands that meet them. -/

namespace Sys2Proof.Tests

set_option Elab.async false

open Sys2Proof Sys2Proof.Machine

/-! ### WellFormed: an ill-formed term for each check, and the greatest well-formed one -/

theorem test_wf_induction_offset :
    (Instr.inductionRingWrite 2048 0#32 0xF#4).wf = false ∧
    (Instr.inductionRingWrite 2047 0#32 0xF#4).wf = true := by decide

theorem test_wf_station_offset :
    (Instr.stationRingWrite 0 2048 0#32 0xF#4).wf = false ∧
    (Instr.stationRingWrite 3 2047 0#32 0xF#4).wf = true := by decide

theorem test_wf_reject_pocket_never_drains :
    (Instr.drainComplete 0).wf = false ∧ (Instr.drainComplete 63).wf = true := by decide

/-- 0x10 is START, and a partial write of it is a BAD_COMMAND (R157). -/
theorem test_wf_bad_command :
    (Instr.badCommand 0x10#32 0xF#4).wf = false ∧ (Instr.badCommand 0x10#32 0x7#4).wf = true ∧
    (Instr.badCommand 0x00#32 0xF#4).wf = true := by decide

/-! ### Words of the manual -/

/-- No row of the table has bits. -/
theorem test_no_table_words : decodeTableWord 32 0x10 = none ∧
    (State.reset.withFetchWord 32 0x10).pending = [] := by decide

/-- R25 and 00, 5.4: the CRC of the byte 0x01, and of the characters 123456789. -/
theorem test_crc : crc16 [0x01#8] = 0x1021#16 ∧
    crc16 [0x31#8, 0x32#8, 0x33#8, 0x34#8, 0x35#8, 0x36#8, 0x37#8, 0x38#8, 0x39#8] = 0x31C3#16 := by
  decide +kernel

/-- The command words of 10.3, written out: opcode in bits 7:0, argument in bits 31:8. -/
theorem test_command_words :
    decodeCommand 0x00040001#32 = some (.loadPlan 0x000400#24) ∧
    decodeCommand 0x00000002#32 = some .loadAbort ∧
    decodeCommand 0x00000010#32 = some .start ∧ decodeCommand 0x00000011#32 = some .stop ∧
    decodeCommand 0x00000012#32 = some .purge ∧
    decodeCommand 0x00000520#32 = some (.sweepFirst 5) ∧
    decodeCommand 0x00003F21#32 = some (.sweepLast 63) ∧
    decodeCommand 0x00000622#32 = some (.sweepExclude 6) ∧
    decodeCommand 0x00000023#32 = some .sweepGo ∧
    decodeCommand 0x00000728#32 = some (.pocketOpen 7) ∧
    decodeCommand 0x00000729#32 = some (.pocketDisable 7) := by decide +kernel

theorem test_more_command_words :
    decodeCommand 0x0000072A#32 = some (.pocketEnable 7) ∧
    decodeCommand 0x00000330#32 = some (.stationEnable 3) ∧
    decodeCommand 0x00000331#32 = some (.stationDisable 3) ∧
    decodeCommand 0x00000032#32 = some (.stationRestart 0) ∧
    decodeCommand 0x00000040#32 = some .chainStart ∧
    decodeCommand 0x00000041#32 = some .chainResume ∧
    decodeCommand 0x00000042#32 = some .chainStop ∧
    decodeCommand 0x00000043#32 = some .chainFlush ∧
    decodeCommand 0x0000FE50#32 = some (.setNoticeMask 0xFE#8) ∧
    decodeCommand 0x00000151#32 = some (.setAttnMode .first) ∧
    decodeCommand 0x00000052#32 = some .statusClear := by decide +kernel

/-- Opcode 0, an unknown opcode, and a reserved argument bit in each kind of argument field (R157, R159). -/
theorem test_refused_command_words :
    decodeCommand 0x00000000#32 = none ∧ decodeCommand 0x00000053#32 = none ∧
    decodeCommand 0x00000110#32 = none ∧ decodeCommand 0x00004020#32 = none ∧
    decodeCommand 0x00000430#32 = none ∧ decodeCommand 0x00010050#32 = none ∧
    decodeCommand 0x00000251#32 = none := by decide +kernel

/-- The gate words of 10.4 and of chapter 6: decided by rule to pocket 5 in slot 0x31; an untracked dispatch of slot 0x02. -/
theorem test_gate_words :
    (decisionWord ⟨5, 5, .rule, false, some 4⟩ 0x31#8).word = 0x80010531#32 ∧
    (dispatchWord 0x02#8 none).word = 0x82000002#32 ∧ (peekWord 0x02#8 none).word = 0x10000002#32 := by
  decide +kernel

/-- Completion words of chapter 8: two records ended by BATCH; the refusal of a descriptor with capacity 0. -/
theorem test_completion_words :
    completionWord false .batch 2 = 0x80030002#32 ∧ completionWord true .empty 0 = 0xC0050000#32 := by
  decide +kernel

/-- The first word and the tag word of a LETTER_LOST notice of a DECIDED letter (10.7). -/
theorem test_notice_word :
    Notice.word { kind := .letterLost, cause := 3#4, arg16 := 0x0102#16, arg32 := 4#32,
                  position := 0x9F6#24 } 0 = 0x3000050F#32 ∧
    Notice.word { kind := .letterLost, cause := 3#4, arg16 := 0x0102#16, arg32 := 4#32,
                  position := 0x9F6#24 } 3 = 0x000009F6#32 := by decide +kernel

/-- Status words 0 and 1 right after reset: identity; STOPPED, FEED_HOLD asserted with condition LINE. -/
theorem test_status_words_after_reset :
    statusWord State.reset 0 = 0x04640001#32 ∧ statusWord State.reset 1 = 0x00000110#32 ∧
    statusWord State.reset 4 = 0x00000F00#32 ∧ statusWord State.reset 11 = 0x0000FF00#32 := by
  decide +kernel

/-- The account code of the Introduction's example (00, 5.5): check digit 4. -/
theorem test_account_code : keyCheckDigit 0x30226291830004170#68 = 4 ∧
    keyNumber 0x30226291830004170#68 0 2 = 7 ∧ keyNumber 0x30226291830004170#68 2 2 = 14 ∧
    keyNumber 0x30226291830004170#68 4 9 = 381926 := by decide +kernel

/-! ### A small plan and the states built on it -/

/-- The state that a command answers with; the state itself where it does not answer next. -/
def after (c : Instr) (s : State) : State :=
  match exec c s with
  | .next t => t
  | .fault _ | .refused _ => s

/-- Payload bytes of a layout block with `P` pockets, two stations, 256 entry records, a ring of 64 notices, stall timeout 1 and decide, lost and gap distances 600, 1400 and 120 (10.5). -/
def layoutBytes (P : Byte) : List Byte :=
  [0x42, 0x4A, 0x4C, 0x50, 1, P, 1, 4] ++ [0, 0, 0x40, 0, 0, 1, 1, 0] ++ [0, 0, 0x42, 0] ++
  [0, 0, 0x41, 0, 0x80, 0x84] ++ [0, 0x10, 0x41, 0, 0x80, 0x86] ++
  [0, 0, 0, 0, 0, 0] ++ [0, 0, 0, 0, 0, 0] ++ [0, 0, 0x43, 0, 64, 0] ++
  [0x58, 2, 0x78, 5, 0x78, 0] ++ [0, 0, 0, 0]

def layout : Layout := ⟨layoutBytes 8⟩

theorem test_layout_passes :
    (layout.checks 0 0).all (fun c => c.2) = true ∧ layout.payload.length = 60 := by decide +kernel

/-- A rule that sends everything to pocket 2. -/
def ruleAll : Rule := ⟨.any, .any, 2, 0xFFFF, 0, 0⟩

/-- A running part under a VALID plan: stations 0 and 1 hunt, eight pockets of capacity 2, pocket 3 the partner of pocket 2. -/
def live : State :=
  { State.reset with
    plan := ⟨.valid, none, some layout, [ruleAll], 0xA01#32, 6, 7, 1, 3⟩
    transport := ⟨1000#24, .running, none, false, false⟩
    stations := placeStations layout State.reset.stations
    pockets := placePockets ((List.range 8).map fun p =>
      ⟨2, 1, if p = 2 then some 3 else none, true⟩) }

/-- A COLLECTING letter that entered at position 1000. -/
def letter (t : Tag) : Letter :=
  ⟨t, 1000#24, .normal, false, false, .collecting, [], Vector.replicate 4 false, false, 0, none, 0,
    false⟩

/-- The letter decided to pocket `p`, by rule 0. -/
def decidedTo (p : PocketIx) (l : Letter) : Letter :=
  { l with state := .decided ⟨p, p, .rule, false, some 0⟩ }

/-- The part with these letters in transit at a position, its pockets' in-flight counts agreeing. -/
def carrying (ls : List Letter) (position : Position) : State :=
  { live with
    transit := ⟨ls, .waiting, some 0x0101#16, some 0⟩
    transport := { live.transport with position := position, stall := some 0 }
    pockets := Vector.ofFn fun p =>
      { live.pockets[p] with inFlight := ls.countP (Letter.reserves p) } }

/-- The part with pocket `p` changed. -/
def withPocket (p : PocketIx) (f : Pocket → Pocket) (s : State) : State :=
  s.setPocket p (f (s.pocket p))

/-- The part with pocket `p` DRAINING to CLOSED. -/
def draining (p : PocketIx) (s : State) : State :=
  withPocket p (fun x => { x with state := .draining .closed }) s

/-- The part with station `st` changed. -/
def withStation (st : StationIx) (f : Station → Station) (s : State) : State :=
  s.setStation st (f (s.station st))

/-- The part with an access at memory. -/
def atPort (job : Job) (abandoned : Bool) (s : State) : State :=
  { s with port := some ⟨job, ⟨0x1000#32, .read⟩, abandoned⟩ }

/-- The chain engine filling descriptor 0x1000 (capacity 2, word 1 0x1010, area 0x2000) with `count` records written. -/
def filling (control : Word) (count : Nat) (work : ChainWork) : Chain :=
  { Chain.reset with
    state := .filling, descAddr := 0x1000#32, control := control, next := 0x1010#32
    area := 0x2000#32, count := count, work := work }

def record (t : Tag) : Retired := ⟨live.disposition .lost (letter t), false⟩

/-- The CRC sealed into word 7 of a decode record of seven words (10.4). -/
def sealRecord (ws : List Word) : List Word := ws ++ [(crc16 (wordsBytes ws)).setWidth 32]

/-- A NOREAD record of a tag for station 0, its LAST flag as given. -/
def noReadRecord (t : Tag) (last : Bool) : List Word :=
  sealRecord [t.setWidth 32 ||| 0x000C0000#32 ||| flag last 23, 0, 0, 0, 0, 0, 0]

/-- A block of a plan image: payload, sequence number and CRC (R24, R25). -/
def sealBlock (payload : List Byte) (k : Byte) : List Byte :=
  let bs := payload ++ List.replicate (60 - payload.length) 0#8 ++ [k, 0#8]
  bs ++ [(crc16 bs).extractLsb' 0 8, (crc16 bs).extractLsb' 8 8]

/-- The words of bytes (00, 5.1). -/
def bytesWords : List Byte → List Word
  | a :: b :: c :: d :: rest => (d ++ c ++ b ++ a) :: bytesWords rest
  | _ => []

/-- A part whose load has read fifteen words of a block. -/
def loadingBlock (ld : Load) (bs : List Byte) (s : State) : State :=
  atPort .planRead false
    { s with
      cmd := { s.cmd with executing := true }
      plan := { s.plan with
        state := .loading, rules := [], load := some { ld with words := (bytesWords bs).take 15 } } }

/-- The sixteenth word of a block. -/
def lastWord (bs : List Byte) : Word := (bytesWords bs).getD 15 0#32

def params : Params := ⟨0xA02#32, 0, 6, 7, 1, 3, 0xFF#8, .level⟩

/-- Payload of a block 1 with no rules (10.5). -/
def paramBytes : List Byte := [2, 0x0A, 0, 0, 0, 0, 6, 7, 1, 3, 0xFF, 0]

/-- One pocket record: capacity 2, threshold 1, no partner, OPEN. -/
def pocketBytes : List Byte := [2, 0, 1, 0, 0, 0, 0, 0]

/-- A load before its block `k`, with the layout and parameters it has learnt. -/
def loadAt (k : Nat) (l : Option Layout) (p : Option Params) : Load :=
  ⟨0x10000#32, k, [], l, false, p, [], [], false⟩

/-! ### Small steps -/

/-- R46, R50: one advance takes the lost expiry that its count reaches. -/
theorem test_advance_loses_letter :
    (after .encAdvance (carrying [decidedTo 2 (letter 0x0101#16)] 2399#24)).transit.letters = [] ∧
    ((after .encAdvance (carrying [decidedTo 2 (letter 0x0101#16)] 2399#24)).records.map (·.outcome)) =
      [.lost] := by decide +kernel

/-- R48: the advance before it does not. -/
theorem test_advance_keeps_letter :
    (after .encAdvance (carrying [decidedTo 2 (letter 0x0101#16)] 2398#24)).transit.letters.length = 1 := by
  decide +kernel

/-- R49, R86: the decide expiry decides by rule 0 and counts a miss for each present station. -/
theorem test_decide_by_rule :
    ((after .encAdvance (carrying [letter 0x0101#16] 1599#24)).transit.letters.map (·.state)) =
      [.decided ⟨2, 2, .rule, false, some 0⟩] ∧
    ((after .encAdvance (carrying [letter 0x0101#16] 1599#24)).stations.map (·.misses)).toList =
      [1, 1, 0, 0] := by decide +kernel

/-- R58, R60, R61: two full writes of one record enter a letter. -/
theorem test_entry :
    (after (.inductionRingWrite 1 0x0102#32 0xF#4)
      (after (.inductionRingWrite 0 0x1#32 0xF#4) live)).tags = [0x0102#16] := by decide +kernel

/-- R112, R113, R118: a dispatch lands the letter and takes it from the list. -/
theorem test_dispatch :
    let t := after (.gateDispatch 0x01#8) (carrying [decidedTo 2 (letter 0x0101#16)] 1700#24)
    t.transit.letters = [] ∧ (t.pocket 2).fill = 1 ∧ (t.pocket 2).inFlight = 0 ∧
      t.backplane.response = some ⟨4#3, some (some 0x80010201#32)⟩ := by decide +kernel

/-- R114: an undecided letter is dispatched to pocket 0, cause LATE_DECISION. -/
theorem test_late_dispatch :
    (after (.gateDispatch 0x03#8) (carrying [letter 0x0103#16] 1100#24)).backplane.response =
      some ⟨4#3, some (some 0x800A0003#32)⟩ := by decide +kernel

/-- R103, R104: with pocket 2 full its partner takes the letter. -/
theorem test_partner :
    decideLetter live.plan (withPocket 2 (fun x => { x with fill := 2 }) live).pockets
      (letter 0x0101#16) (summarize []) = ⟨2, 3, .rule, true, some 0⟩ := by decide +kernel

/-- R20: an own requester passed over four times goes before passthrough. -/
theorem test_arbiter :
    let busy : Forwarded := ⟨⟨0x1000#32, 0#3, .read⟩, .ordinary, false⟩
    let s := { live with
      backplane := ⟨some busy, none⟩, noticeReq := ⟨some ⟨.noticeWord, ownRead 0x2000#32⟩, 3⟩ }
    (after .arbiterGrant s).noticeReq.wait = 4 ∧
      ((after .arbiterGrant { s with noticeReq := { s.noticeReq with wait := 4 } }).port.map
        (·.job)) = some .noticeWord := by decide +kernel

/-- R37: a load that ends in ABORTED leaves the plan INVALID. -/
theorem test_load_abort :
    let t := after .loadAbort (after (.loadPlan 0x000400#24) live)
    t.plan.state = .invalid ∧ t.cmd.executing = false ∧ t.cmd.ackCount = 2#16 := by
  decide +kernel

set_option maxRecDepth 20000 in
/-- R24 to R40: an image of three blocks, its last block read, makes the plan VALID. -/
theorem test_load_completes :
    let bs := sealBlock pocketBytes 2#8
    let t := after (.planReadDone (.ok (lastWord bs)))
      (loadingBlock (loadAt 2 (some ⟨layoutBytes 1⟩) (some params)) bs live)
    t.plan.state = .valid ∧ t.plan.planId = 0xA02#32 ∧ t.cmd.last.result = .ok := by
  decide +kernel

/-- R76: a sealed record passes, and one bit changed is a CRC fault. -/
theorem test_record_crc :
    (carrying [letter 0x0101#16] 1100#24).recordFault 0 (noReadRecord 0x0101#16 true) = none ∧
    (carrying [letter 0x0101#16] 1100#24).recordFault 0
      ((noReadRecord 0x0101#16 true).set 1 1#32) = some .crc := by decide +kernel

/-- R143, R147: a descriptor with capacity 0 is refused with its completion word. -/
theorem test_descriptor_refused :
    let s := atPort .chainDesc false { live with chain := { filling 0#32 0 (.descriptor 2) with state := .fetch } }
    ((after (.chainDescReadDone (.ok 0x2000#32)) s).chainReq.req.map (·.access)) =
      some ⟨0x100C#32, .write 0xC0050000#32 0xF#4⟩ := by decide +kernel

/-- R145, R154: a CHAIN_START after a CHAIN_STOP in FETCH waits for the answer to the abandoned read, and word 0 is then presented. -/
theorem test_fetch_waits_for_memory :
    let s := after .chainStart (after .chainStop (atPort .chainDesc false
      { live with chain := { filling 0#32 0 (.descriptor 1) with state := .fetch } }))
    let t := after (.chainDescReadDone (.ok 0#32)) s
    s.chainReq.req = none ∧ s.chain.work = .descriptor 0 ∧
      t.chainReq.req = some ⟨.chainDesc, ⟨0#32, .read⟩⟩ ∧ t.chain.work = .descriptor 0 := by
  decide +kernel

/-- R10: a write of the gate window is refused with its notice. -/
theorem test_write_blocked :
    ((after (.backplaneAccess ⟨0x420000#32, 4#3, .write 0#32 0xF#4⟩) live).notice.fifo.map
      (fun n => (n.kind, n.cause, n.arg32))) = [(.writeBlocked, 6#4, 0x420000#32)] := by
  decide +kernel

/-- R161: an acknowledgment that finds 32 entries is dropped, counted and flagged; the count saturates. -/
theorem test_notice_dropped :
    let s (n : Nat) := { live with notice := { live.notice with
      fifo := List.replicate 32 { kind := .feedHold }, lostCount := n } }
    ((after .stop (s 0)).notice.lostCount, (after .stop (s 0)).notice.lost) = (3, true) ∧
    (after .stop (s 65534)).notice.lostCount = 65535 := by decide +kernel

/-- R163: an acknowledgment that joins an empty FIFO has its word 0 presented at base + 16 times the producer index. -/
theorem test_notice_presented :
    let s := { live with notice := { live.notice with producer := 5, consumer := 5 } }
    (after .statusClear s).notice.writing = some 0 ∧
    (after .statusClear s).noticeReq =
      ⟨some ⟨.noticeWord, ⟨0x430050#32, .write 0x00520001#32 0xF#4⟩⟩, 0⟩ := by decide +kernel

/-- R164, R169: a consumer write that makes the ring full stops the entry being written, and one that makes room presents its word 0 again; another leaves it to its acceptance, which asserts ATTN. -/
theorem test_full_ring_stops_writing :
    let s := { live with
      notice := { live.notice with
        fifo := [{ kind := .feedHold }], producer := 5, consumer := 5, writing := some 3 }
      noticeReq := ⟨some ⟨.noticeWord, ownWrite 0x43005C#32 0#32⟩, 1⟩ }
    let stopped := after (.noticeConsumerIndex 6#32 0xF#4) s
    let again := after (.noticeConsumerIndex 5#32 0xF#4) stopped
    let accepted := after (.noticeWordWriteDone .ok)
      (after .arbiterGrant (after (.noticeConsumerIndex 4#32 0xF#4) s))
    (stopped.notice.writing, stopped.noticeReq, stopped.notice.attn) = (none, ⟨none, 0⟩, true) ∧
    (again.notice.writing = some 0 ∧ again.notice.fifo.length = 1 ∧ again.notice.attn = false) ∧
    (accepted.notice.producer = 6 ∧ accepted.notice.attn = true) := by decide +kernel

set_option maxRecDepth 20000 in
/-- R166: a layout applied with an entry in the FIFO withdraws its word and presents word 0 for ring entry 0. -/
theorem test_layout_restarts_ring :
    let bs := sealBlock pocketBytes 2#8
    let s := loadingBlock { loadAt 2 (some ⟨layoutBytes 1⟩) (some params) with changed := true } bs
      { live with
        transport := { live.transport with line := .stopped, feedHold := true }
        notice := { live.notice with
          fifo := [{ kind := .feedHold }], producer := 5, consumer := 3, writing := some 2 }
        noticeReq := ⟨some ⟨.noticeWord, ownWrite 0x430058#32 0#32⟩, 3⟩ }
    let t := after (.planReadDone (.ok (lastWord bs))) s
    (t.notice.producer, t.notice.consumer, t.notice.writing) = (0, 0, some 0) ∧
    t.noticeReq = ⟨some ⟨.noticeWord, ⟨0x430000#32, .write 0x00000204#32 0xF#4⟩⟩, 0⟩ := by
  decide +kernel

/-- R175: words 1 and 5 of the record of a letter lost undecided, and of one decided to pocket 2 by rule 0 with a key. -/
theorem test_record_words :
    ((live.disposition .lost (letter 0x0101#16)).word 1 = 0x0000FFFF#32 ∧
      (live.disposition .lost (letter 0x0101#16)).word 5 = 0#32) ∧
    [0, 1, 5, 6, 7].map (live.disposition .dispatched { decidedTo 2 (letter 0x0101#16) with
        accountKey := some 0x30226291830004170#68 }).word =
      [0x06100101#32, 0x00000202#32, 0x30004170#32, 0x02262918#32, 0x3#32] := by decide +kernel

/-! ### Witnesses: for each obligation with hypotheses, a state and operands that meet them -/

/-- What State.Raised asks of a notice: one that finds a full FIFO; one that joins under each condition that has its word 0 presented, or the write as it stood. -/
theorem witness_Raised :
    (∃ (s : State) (n : Notice), s.dropped [n] = 1) ∧
    (∃ (s t : State) (l : Layout) (h : Notice), s.plan.layout = some l ∧
      s.notice.ringFault = false ∧ (s.notice.producer + 1) % l.noticeSize ≠ s.notice.consumer ∧
      s.notice.writing = none ∧ t.notice.fifo ≠ s.notice.fifo ∧ t.notice.fifo = h :: []) ∧
    (∀ l, State.reset.plan.layout = some l → State.reset.notice.ringFault = true) ∧
    (∃ s : State, s.plan.layout = some layout ∧
      (s.notice.producer + 1) % layout.noticeSize = s.notice.consumer) ∧
    (∃ s : State, s.notice.writing ≠ none) :=
  ⟨⟨{ live with notice := { live.notice with fifo := List.replicate 32 { kind := .feedHold } } },
      { kind := .feedHold }, by decide⟩,
    ⟨live, after .statusClear live, layout, live.stamp (ackNotice (after .statusClear live).cmd.last),
      by decide +kernel⟩,
    (fun _ h => nomatch h), ⟨{ live with notice := { live.notice with producer := 63 } }, rfl, rfl⟩,
    ⟨after .statusClear live, by decide +kernel⟩⟩

/-- The edges of the stall timeout, and the last but one and the last edge before the expiry. -/
theorem witness_StallMonitorCountsAndExpires :
    live.pending = [] ∧ live.transport.stall = none ∧ live.stallEdges = 10000 ∧
    (∃ s : State, s.pending = [] ∧ s.transport.stall = some 9998 ∧ 9998 + 1 < s.stallEdges) ∧
    (∃ s : State, s.pending = [] ∧ s.transport.stall = some 9999 ∧ s.stallEdges ≤ 9999 + 1 ∧
      9999 < s.stallEdges ∧ s.transport.stall.isSome = true) :=
  ⟨by decide, by decide, by decide,
    ⟨{ live with transport := { live.transport with stall := some 9998 } }, by decide⟩,
    ⟨{ live with transport := { live.transport with stall := some 9999 } }, by decide⟩⟩

/-- A forwarded access, not yet granted. -/
def forwarded (op : BusOp) (r : Region) (granted : Bool) : Forwarded :=
  ⟨⟨0x1000#32, 5#3, op⟩, r, granted⟩

/-- The part with a forwarded access. -/
def busyWith (f : Forwarded) (s : State) : State := { s with backplane := ⟨some f, none⟩ }

/-- An access that waits for its grant, one that has it, and no access. -/
theorem witness_ResetAssertAndRelease :
    (∃ (s : State) (f : Forwarded), s.backplane.busy = some f ∧ f.granted = false) ∧
    (∃ (s : State) (f : Forwarded), s.backplane.busy = some f ∧
      ∀ g, s.backplane.busy = some g → g.granted = true) ∧
    (∃ s : State, ∀ g, s.backplane.busy = some g → g.granted = true) :=
  ⟨⟨busyWith (forwarded .read .ordinary false) live, _, rfl, rfl⟩,
    ⟨busyWith (forwarded .read .ordinary true) live, _, rfl, fun _ h => by cases h; rfl⟩,
    ⟨live, fun _ h => by cases h⟩⟩

theorem witness_NothingActsWhileResetLow : ∃ s : State, s.resetLow = true :=
  ⟨resetAssert live, rfl⟩

theorem witness_PositionReachedWithinHalfCircle :
    ∃ (s : State) (lay : Layout), s.plan.layout = some lay := ⟨live, _, rfl⟩

theorem witness_TagsComparedInCircle :
    ∃ (s : State) (last : Tag), s.transport.line ≠ .stopped ∧ s.transitCount ≠ 32 ∧
      s.occupancySum ≠ 64 ∧ s.transit.lastTag = some last :=
  ⟨carrying [letter 0x0101#16] 1100#24, 0x0101#16, by decide +kernel⟩

/-- A STALLED line; a letter that the next count loses, before one that it decides; and a COLLECTING letter that it does not yet decide. -/
theorem witness_AdvanceTakesDueExpiries :
    (∃ s : State, s.resetLow = false ∧ s.transport.line = .stalled) ∧
    (∃ s : State, s.resetLow = false ∧ s.tags = [0x0101#16, 0x0102#16] ∧
      (after .encAdvance s).tags = [0x0102#16] ∧
      (after .encAdvance s).transit.letters.map (·.state) ≠ [.collecting]) ∧
    (∃ s : State, s.resetLow = false ∧ s.transit.letters ≠ [] ∧
      ∀ l ∈ s.transit.letters, l.state = .collecting ∧
        (after .encAdvance s).decideReached l = false) :=
  ⟨⟨after .stallExpiry (carrying [letter 0x0101#16] 1100#24), by decide +kernel⟩,
    ⟨carrying [decidedTo 2 (letter 0x0101#16),
      { letter 0x0102#16 with entryPos := 1800#24 }] 2399#24, by decide +kernel⟩,
    ⟨carrying [letter 0x0101#16] 1100#24, by decide +kernel⟩⟩

/-- The lost point of a letter entered at 1000 is 2400: the count one before it has not reached it. A letter whose departure completes a drain, while the engine waits for a record. -/
theorem witness_LostExpiryRetiresOldestLetter :
    (∃ (s : State) (l : Letter), s.resetLow = false ∧ s.transit.letters = l :: [] ∧
      s.lostReached l = true) ∧
    (∃ (s : State) (l : Letter), s.resetLow = false ∧ s.transit.letters = l :: [] ∧
      s.lostReached l = true ∧ s.drainedBy l = [2] ∧ s.chain.state = .filling ∧
      s.chain.work = .none) ∧
    (∃ s : State, s.resetLow = false ∧ s.transit.letters ≠ [] ∧
      ∀ l, s.transit.letters.head? = some l → s.lostReached l = false) :=
  ⟨⟨carrying [letter 0x0101#16] 2400#24, letter 0x0101#16, by decide +kernel⟩,
    ⟨draining 2 { carrying [decidedTo 2 (letter 0x0101#16)] 2400#24 with
        chain := filling 2#32 0 .none }, decidedTo 2 (letter 0x0101#16), by decide +kernel⟩,
    ⟨carrying [letter 0x0101#16] 2399#24, by decide, by decide, by
      intro l h
      cases h
      decide +kernel⟩⟩

/-- The watched letter behind a decided one, under a VALID plan and during a load; one whose miss degrades station 0, which makes the letter behind it ready; and no letter due. -/
theorem witness_DecideExpiryDecidesAndCountsMisses :
    (∃ (s : State) (d l : Letter), s.resetLow = false ∧ s.transit.letters = [d] ++ l :: [] ∧
      (∀ x ∈ [d], x.state ≠ .collecting) ∧ l.state = .collecting ∧ s.decideReached l = true ∧
      s.plan.state ≠ .loading) ∧
    (∃ (s : State) (l : Letter), s.resetLow = false ∧ s.transit.letters = [] ++ l :: [] ∧
      l.state = .collecting ∧ s.decideReached l = true ∧ s.plan.state = .loading) ∧
    (∃ (s : State) (l x : Letter), s.resetLow = false ∧ s.transit.letters = [] ++ l :: [x] ∧
      l.state = .collecting ∧ s.decideReached l = true ∧
      (List.finRange 4).filter (fun st => missCounted l st s &&
        decide (s.plan.missLimit ≤ satSucc 15 (s.station st).misses)) = [0] ∧
      x.state = .collecting ∧ earlyReady (after .decideExpiry s).stations x = true ∧
      earlyReady s.stations x = false) ∧
    (∃ s : State, s.transit.letters ≠ [] ∧
      ∀ l, s.decideWatch = some l → s.decideReached l = false) :=
  ⟨⟨carrying [decidedTo 2 (letter 0x0101#16), letter 0x0102#16] 1600#24,
      decidedTo 2 (letter 0x0101#16), letter 0x0102#16, by decide +kernel⟩,
    ⟨{ carrying [letter 0x0102#16] 1600#24 with plan := { live.plan with state := .loading } },
      letter 0x0102#16, by decide +kernel⟩,
    ⟨withStation 0 (fun x => { x with misses := 2 })
        (carrying [letter 0x0101#16, (letter 0x0102#16).report 1] 1600#24),
      letter 0x0101#16, (letter 0x0102#16).report 1, by decide +kernel⟩,
    ⟨carrying [letter 0x0101#16] 1599#24, by decide, by
      intro l h
      cases h
      decide +kernel⟩⟩

theorem witness_StartAndStopMoveLine :
    ∃ s : State, s.Ready ∧ s.transport.line = .stopped ∧ s.plan.state = .valid :=
  ⟨{ live with transport := { live.transport with line := .stopped, feedHold := true } },
    ⟨rfl, rfl⟩, rfl, rfl⟩

/-- Two letters in flight to a DRAINING pocket, whose drain the second completes; and an empty list. -/
theorem witness_PurgeEmptiesTransitList :
    (∃ s : State, s.Ready ∧ s.transit.letters ≠ [] ∧
      s.drainsInTurn s.transit.letters = [[], [2]] ∧ s.reserved 2 = 2) ∧
    (live.Ready ∧ live.transit.letters = []) :=
  ⟨⟨draining 2
      (carrying [decidedTo 2 (letter 0x0101#16), decidedTo 2 (letter 0x0102#16)] 1100#24),
      ⟨rfl, rfl⟩, by decide +kernel⟩, ⟨rfl, rfl⟩, rfl⟩

/-- The part holding the first word of entry record `i`. -/
def holdingFirst (i : Nat) (first : Word) (s : State) : State :=
  { s with transit := { s.transit with assembly := .holding i first } }

/-- A WAITING assembly at the last word of the ring, and a held record whose second word is written in part. -/
theorem witness_InductionAssemblyFollowsWrites :
    (∃ s : State, s.resetLow = false ∧ s.inInductionRing 511 = true ∧
      ∀ i w, s.transit.assembly = .holding i w → ¬(0xF#4 = 0xF#4 ∧ 511 = 2 * i + 1)) ∧
    (∃ s : State, s.resetLow = false ∧ s.inInductionRing 511 = true ∧
      s.transit.assembly = .holding 255 1#32 ∧
      ∀ i w, s.transit.assembly = .holding i w → ¬(0x7#4 = 0xF#4 ∧ 511 = 2 * i + 1)) :=
  ⟨⟨live, rfl, by decide, by intro i w h; cases h⟩,
    ⟨holdingFirst 255 1#32 live, rfl, by decide, rfl, by intro i w _ h; exact absurd h.1 (by decide)⟩⟩

/-- 31 letters in transit, with distinct slots. -/
def manyLetters (n : Nat) : List Letter :=
  (List.range n).map fun i => letter (BitVec.ofNat 16 (0x0102 + i))

/-- An entry at the last record of the ring, with 31 letters in transit and 32 records waiting. -/
theorem witness_EntryTaken :
    ∃ (s : State) (e : Entry), s.resetLow = false ∧ s.inInductionRing (2 * 255 + 1) = true ∧
      s.transit.assembly = .holding 255 0x5#32 ∧ s.transport.line ≠ .stopped ∧
      entryOf 0x5#32 0x0001#32 = some e ∧ s.transit.letters.length < 32 ∧
      s.transit.letters.length + s.retire.length < 64 ∧
      (∀ last, s.transit.lastTag = some last → tagOlder last e.tag = true) ∧
      (∀ l ∈ s.transit.letters, slotOf l.tag ≠ slotOf e.tag) :=
  ⟨holdingFirst 255 0x5#32
      { carrying (manyLetters 31) 1100#24 with
        transit := { (carrying (manyLetters 31) 1100#24).transit with lastTag := some 0x8002#16 }
        retire := List.replicate 32 (record 0x0001#16) },
    ⟨0x0001#16, .normal, true⟩, by decide, by decide, by decide, by decide, by decide, by decide,
    by decide, by
      intro last h
      cases h
      decide, by decide +kernel⟩

/-- Each cause of a refusal, with the first that fails in the order of R60. -/
theorem witness_EntryRefused :
    (∃ s : State, s.inInductionRing 1 = true ∧ s.transit.assembly = .holding 0 1#32 ∧
      s.transport.line = .stopped) ∧
    (∃ s : State, s.inInductionRing 1 = true ∧ s.transport.line ≠ .stopped ∧
      entryOf 0x3#32 0x0102#32 = none) ∧
    (∃ s : State, s.transport.line ≠ .stopped ∧ s.transitCount = 32 ∧
      (entryOf 1#32 0x0202#32).isSome = true) ∧
    (∃ s : State, s.transport.line ≠ .stopped ∧ s.transitCount ≠ 32 ∧ s.occupancySum ≠ 64 ∧
      (entryOf 1#32 0x0101#32).isSome = true ∧ s.transit.lastTag = some 0x0101#16 ∧
      tagOlder 0x0101#16 (entryTag 0x0101#32) = false) ∧
    (∃ (s : State) (l : Letter), s.transport.line ≠ .stopped ∧ s.transitCount ≠ 32 ∧
      s.occupancySum ≠ 64 ∧ (entryOf 1#32 0x0201#32).isSome = true ∧
      (∀ last, s.transit.lastTag = some last → tagOlder last (entryTag 0x0201#32) = true) ∧
      s.letterBySlot (slotOf (entryTag 0x0201#32)) = some l) :=
  ⟨⟨holdingFirst 0 1#32 { live with transport := { live.transport with line := .stopped } },
      by decide, rfl, rfl⟩,
    ⟨live, by decide, by decide, by decide⟩,
    ⟨carrying (manyLetters 32) 1100#24, by decide, by decide, by decide⟩,
    ⟨carrying [letter 0x0101#16] 1100#24, by decide, by decide, by decide, by decide, rfl,
      by decide⟩,
    ⟨carrying [letter 0x0101#16] 1100#24, letter 0x0101#16, by decide, by decide, by decide,
      by decide, by
        intro last h
        cases h
        decide, by decide +kernel⟩⟩

/-- The assembly of station 0 collecting these words of a slot, in a framing. -/
def collectingIn (f : Framing) (slot : Nat) (ws : List Word) (s : State) : State :=
  withStation 0 (fun x => { x with framing := f, assembly := .collecting slot ws }) s

theorem witness_StationAssemblyCollects :
    (∃ s : State, s.resetLow = false ∧ 1023 < 8 * s.stationSlots 0 ∧
      (s.station 0).framing = .off) ∧
    (∃ s : State, 1023 < 8 * s.stationSlots 0 ∧ (s.station 0).framing ≠ .off ∧
      (s.station 0).assembly = .seek) ∧
    (∃ s : State, 1022 < 8 * s.stationSlots 0 ∧ (s.station 0).framing ≠ .off ∧
      (s.station 0).assembly = .collecting 127 (List.replicate 6 0#32) ∧
      (List.replicate 6 0#32).length < 7 ∧ 1022 = 8 * 127 + (List.replicate 6 0#32).length) :=
  ⟨⟨withStation 0 Station.disabled live, by decide +kernel⟩, ⟨live, by decide +kernel⟩,
    ⟨collectingIn .locked 127 (List.replicate 6 0#32) live, by decide +kernel⟩⟩

/-- A skipped word in HUNT and in LOCKED; a complete record with a wrong CRC in each framing, and at fault run 2. -/
theorem witness_RejectedRecordsCounted :
    (∃ f ∈ [Framing.hunt, Framing.locked], ∃ s : State, s.resetLow = false ∧
      1023 < 8 * s.stationSlots 0 ∧ (s.station 0).framing = f ∧
      (s.station 0).assembly = .collecting 127 [] ∧ ¬(0xF#4 = 0xF#4 ∧ 1023 = 8 * 127 + 0)) ∧
    (∃ s : State, s.resetLow = false ∧ 8 * 127 + 7 < 8 * s.stationSlots 0 ∧
      (s.station 0).framing = .locked ∧ (s.station 0).faultRun = 2 ∧
      (s.station 0).assembly = .collecting 127 (List.replicate 7 0#32) ∧
      s.recordFault 0 (List.replicate 7 0#32 ++ [1#32]) = some .crc) ∧
    (∃ s : State, 8 * 0 + 7 < 8 * s.stationSlots 0 ∧ (s.station 0).framing = .hunt ∧
      (s.station 0).assembly = .collecting 0 (List.replicate 7 0#32) ∧
      s.recordFault 0 (List.replicate 7 0#32 ++ [0#32]) = some .stray) :=
  ⟨⟨.locked, by decide, collectingIn .locked 127 [] live, by decide +kernel⟩,
    ⟨withStation 0 (fun x => { x with faultRun := 2 })
      (collectingIn .locked 127 (List.replicate 7 0#32) live), by decide +kernel⟩,
    ⟨collectingIn .hunt 0 (List.replicate 7 0#32) live, by decide +kernel⟩⟩

/-- A good record without LAST; with LAST while station 1 is still waited for; and with LAST when station 0 alone is. -/
theorem witness_GoodRecordReachesLetter :
    (∃ s : State, s.resetLow = false ∧ 8 * 127 + 7 < 8 * s.stationSlots 0 ∧
      (s.station 0).framing ≠ .off ∧
      (s.station 0).assembly = .collecting 127 ((noReadRecord 0x0101#16 false).take 7) ∧
      s.recordFault 0 (noReadRecord 0x0101#16 false) = none ∧
      s.transit.letters = [] ++ letter 0x0101#16 :: [] ∧
      recordTag (noReadRecord 0x0101#16 false) = 0x0101#16 ∧ s.SlotsDistinct ∧
      recordLast (noReadRecord 0x0101#16 false) = false) ∧
    (∃ s : State, s.recordFault 0 (noReadRecord 0x0101#16 true) = none ∧
      s.transit.letters = [] ++ letter 0x0101#16 :: [] ∧
      recordLast (noReadRecord 0x0101#16 true) = true ∧
      earlyReady s.stations ((letter 0x0101#16).report 0) = false) ∧
    (∃ s : State, s.recordFault 0 (noReadRecord 0x0101#16 true) = none ∧
      s.transit.letters = [] ++ letter 0x0101#16 :: [] ∧
      earlyReady s.stations ((letter 0x0101#16).report 0) = true) :=
  ⟨⟨collectingIn .locked 127 ((noReadRecord 0x0101#16 false).take 7)
      (carrying [letter 0x0101#16] 1100#24), by decide, by decide, by decide, by decide +kernel,
      by decide +kernel, rfl, by decide +kernel, by
        unfold State.SlotsDistinct
        decide, by decide +kernel⟩,
    ⟨carrying [letter 0x0101#16] 1100#24, by decide +kernel⟩,
    ⟨withStation 1 Station.disabled (carrying [letter 0x0101#16] 1100#24), by decide +kernel⟩⟩

/-- A read of station 0 without content. -/
def forwardRead : Read := ⟨0, .forward, 3, true⟩

theorem witness_ReadsJoinReadSet :
    ((letter 1#16).state = .collecting ∧ (letter 1#16).reads.length < 4) ∧
    (∃ l : Letter, l.state = .awaitPlan ∧
      l.reads = [forwardRead, forwardRead, forwardRead, forwardRead]) ∧
    (∃ (l : Letter) (d : Decision), l.state = .decided d ∧ l.lateReads = 14) ∧
    recordKind (noReadRecord 1#16 true) = 3 :=
  ⟨by decide,
    ⟨{ letter 1#16 with state := .awaitPlan, reads := List.replicate 4 forwardRead }, rfl, rfl⟩,
    ⟨{ decidedTo 2 (letter 1#16) with lateReads := 14 }, _, rfl, rfl⟩, by decide +kernel⟩

/-- An ACCOUNT record with the Introduction's code. -/
theorem witness_CheckDigitHolds :
    ∃ (ws : List Word) (r : Read), recordKind ws = 0 ∧ recordRead 0 1 ws = some r ∧
      r.valid = true :=
  ⟨[0x00200001#32, 0x30004170#32, 0x02262918#32, 0x00000043#32], _, by decide +kernel, rfl,
    by decide +kernel⟩

theorem witness_StationCommandsTaken :
    live.Ready ∧ live.stationAbsent 0 = false ∧ (live.station 0).framing ≠ .off ∧
    (live.station 0).expectation = .expected ∧
    (∃ s : State, s.Ready ∧ s.stationAbsent 0 = false ∧ (s.station 0).framing = .locked ∧
      (s.station 0).expectation = .degraded) ∧
    (∃ s : State, s.Ready ∧ s.stationAbsent 0 = false ∧ (s.station 0).framing = .off) :=
  ⟨⟨rfl, rfl⟩, by decide +kernel, by decide +kernel, by decide +kernel,
    ⟨withStation 0 (fun x => { x with framing := .locked, expectation := .degraded }) live,
      ⟨rfl, rfl⟩, by decide +kernel⟩,
    ⟨withStation 0 Station.disabled live, ⟨rfl, rfl⟩, by decide +kernel⟩⟩

/-- A fill of one below the capacity leaves the pocket available; at the capacity its partner, and with that full pocket 0, takes the letter. -/
theorem witness_DecisionFollowsRules :
    State.reset.plan.state = .invalid ∧ live.plan.state = .valid ∧
    (∃ sum : Summary, sum.clash = true) ∧
    intendedPocket live.plan ⟨none, false, 0, false⟩ = (2, .rule, some 0) ∧
    pocketAvailable (withPocket 2 (fun x => { x with fill := 1 }) live).pockets 2 = true ∧
    pocketAvailable (withPocket 2 (fun x => { x with fill := 1, inFlight := 1 }) live).pockets 2 =
      false ∧
    (live.pocket 2).partner = some 3 ∧ pocketAvailable live.pockets 3 = true ∧
    pocketAvailable (withPocket 3 (fun x => { x with state := .closed }) live).pockets 3 = false :=
  ⟨by decide, by decide, ⟨⟨none, true, 0, false⟩, rfl⟩, by decide +kernel, by decide +kernel,
    by decide +kernel, by decide +kernel, by decide +kernel, by decide +kernel⟩

/-- The second rule is the first that matches; none does; and a key for which the selectors name district 7, cycle 14, account 381926 and mail batch 2203, in ranges that they bound. -/
theorem witness_FirstMatchingRuleWins :
    (∃ (plan : Plan) (r : Rule), plan.rules[1]? = some r ∧
      r.matches 0#4 false none = true ∧
      ∀ x ∈ plan.rules.take 1, x.matches 0#4 false none = false) ∧
    (∀ r ∈ State.reset.plan.rules, r.matches 0#4 false none = false) ∧
    (∀ x ∈ [(FieldSelector.district, 7), (.cycle, 14), (.account, 381926), (.mailBatch, 2203)],
      Rule.matches ⟨x.1, .present, 2, 1, x.2, x.2⟩ 0#4 true (some 0x30226291830004170#68) = true ∧
      Rule.matches ⟨x.1, .any, 2, 1, x.2 + 1, 0xFFFFFFFF⟩ 0#4 true (some 0x30226291830004170#68) =
        false ∧
      Rule.matches ⟨x.1, .any, 2, 1, 0, x.2 - 1⟩ 0#4 true (some 0x30226291830004170#68) =
        false) ∧
    Rule.matches { ruleAll with forward := .absent } 0#4 true none = false :=
  ⟨⟨{ live.plan with rules := [{ ruleAll with reasons := 0xFFFE#16 }, ruleAll] }, ruleAll,
    by decide +kernel⟩, by decide, by decide +kernel, by decide +kernel⟩

theorem witness_ReadSummaryFormed :
    (∃ (before : List Read) (r : Read), (∀ x ∈ before, x.valid = true → ∀ y, x.body ≠ .endorse y) ∧
      before ≠ [] ∧ r.valid = true ∧ r.body = .endorse 15#8) ∧
    (∀ x ∈ [forwardRead], x.valid = true → ∀ y, x.body ≠ .endorse y) ∧
    (∀ r ∈ [{ forwardRead with valid := false }], r.valid = false) ∧
    (∃ (ws : List Word) (r : Read), recordRead 0 0 ws = some r ∧ r.body = .endorse 1#8) ∧
    (∃ (ws : List Word) (r : Read), recordRead 0 0 ws = some r ∧ r.body = .forward) ∧
    (∃ ws : List Word, recordKind ws = 2 ∧ bitAt (recordWord ws 1) 0 = false) :=
  ⟨⟨[forwardRead], ⟨0, .endorse 15#8, 3, true⟩, by
      intro x h _ y
      simp only [List.mem_singleton] at h
      subst h
      simp [forwardRead], by decide, rfl, rfl⟩, by
      intro x h _ y
      simp only [List.mem_singleton] at h
      subst h
      simp [forwardRead], by decide,
    ⟨[0x00040000#32, 1#32], _, rfl, by decide +kernel⟩,
    ⟨[0x00080000#32, 1#32], _, rfl, by decide +kernel⟩,
    ⟨[0x00080000#32, 2#32], by decide +kernel⟩⟩

theorem witness_ResolutionsTakeListOrder :
    (letter 1#16).collecting = true ∧ (decidedTo 2 (letter 1#16)).collecting = false ∧
    live.plan.state ≠ .loading ∧ ({ live.plan with state := .loading } : Plan).state = .loading := by
  decide

/-- A pocket that takes its threshold; a DRAINING one whose last letter this is; and pocket 0 filled to its capacity, with the engine waiting for a record. -/
theorem witness_DispatchLandsDecidedLetter :
    (∃ (s : State) (d : Decision), s.resetLow = false ∧ s.backplane.busy = none ∧
      s.gateMaster = some 4#3 ∧
      s.letterBySlot 0x01#8 = some (decidedTo 2 (letter 0x0101#16)) ∧
      (decidedTo 2 (letter 0x0101#16)).state = .decided d ∧
      (s.pocket 2).fill + 1 = (s.pocket 2).threshold) ∧
    (∃ s : State, s.letterBySlot 0x01#8 = some (decidedTo 2 (letter 0x0101#16)) ∧
      s.drainedBy (decidedTo 2 (letter 0x0101#16)) = [2]) ∧
    (∃ s : State, s.letterBySlot 0x01#8 = some (decidedTo 0 (letter 0x0101#16)) ∧
      (s.pocket 0).capacity = some ((s.pocket 0).fill + 1) ∧ s.chain.state = .filling ∧
      s.chain.work = .none ∧ (after (.gateDispatch 0x01#8) s).transport.feedHold = true) :=
  ⟨⟨carrying [decidedTo 2 (letter 0x0101#16)] 1700#24, ⟨2, 2, .rule, false, some 0⟩,
      by decide +kernel⟩,
    ⟨draining 2 (carrying [decidedTo 2 (letter 0x0101#16)] 1700#24), by decide +kernel⟩,
    ⟨withPocket 0 (fun x => { x with fill := 1 })
        { carrying [decidedTo 0 (letter 0x0101#16)] 1700#24 with chain := filling 2#32 0 .none },
      by decide +kernel⟩⟩

/-- An undecided letter, and an empty slot with pocket 0 one below its capacity and at 4095. -/
theorem witness_DispatchWithoutDecision :
    (∃ s : State, s.gateMaster = some 4#3 ∧ s.letterBySlot 0x01#8 = some (letter 0x0101#16) ∧
      (letter 0x0101#16).state = .collecting) ∧
    (∃ s : State, s.resetLow = false ∧ s.backplane.busy = none ∧ s.gateMaster = some 4#3 ∧
      s.letterBySlot 0x02#8 = none ∧ (s.pocket 0).fill = 1 ∧ (s.pocket 0).capacity = some 2) ∧
    (∃ s : State, s.gateMaster = some 4#3 ∧ s.letterBySlot 0x02#8 = none ∧
      (s.pocket 0).fill = 4095) :=
  ⟨⟨carrying [letter 0x0101#16] 1100#24, by decide +kernel⟩,
    ⟨withPocket 0 (fun x => { x with fill := 1 }) live, by decide +kernel⟩,
    ⟨withPocket 0 (fun x => { x with fill := 4095 }) live, by decide +kernel⟩⟩

/-- The highest pocket in use, in each of its states; and the end of its batch with an empty retire buffer, under a BATCH_CLOSE descriptor that holds a record, and with one record waiting. -/
theorem witness_PocketCommandsTaken :
    live.Ready ∧ (7 : PocketIx) ≠ 0 ∧ (7 : PocketIx).val < live.plan.pocketCount ∧
    (live.pocket 7).state = .opened ∧ (live.pocket 7).inFlight = 0 ∧
    ((withPocket 7 (fun x => { x with state := .closed }) live).pocket 7).state = .closed ∧
    ((withPocket 7 (fun x => { x with state := .disabled }) live).pocket 7).state = .disabled ∧
    ((withPocket 7 (fun x => { x with inFlight := 1 }) live).pocket 7).inFlight = 1 ∧
    ((withPocket 7 (fun x => { x with state := .draining .closed, inFlight := 1 }) live).pocket
      7).state = .draining .closed ∧
    (∃ s : State, s.Ready ∧ (s.pocket 7).state = .opened ∧ (s.pocket 7).inFlight = 0 ∧
      s.retire = [] ∧ s.chain.state = .filling ∧ 0 < s.chain.count ∧ s.chain.work = .none ∧
      bitAt s.chain.control 18 = true) ∧
    (∃ s : State, s.Ready ∧ (s.pocket 7).state = .opened ∧ s.retire = [] ++ [record 1#16]) :=
  ⟨⟨rfl, rfl⟩, by decide +kernel, by decide +kernel, by decide +kernel, by decide +kernel,
    by decide +kernel, by decide +kernel, by decide +kernel, by decide +kernel,
    ⟨{ live with chain := filling 0x00040002#32 1 .none }, ⟨rfl, rfl⟩, by decide +kernel⟩,
    ⟨{ live with retire := [record 1#16] }, ⟨rfl, rfl⟩, by decide +kernel⟩⟩

theorem witness_DrainCompletionEndsBatch :
    (∃ s : State, s.resetLow = false ∧ (s.pocket 7).state = .draining .closed ∧
      (s.pocket 7).inFlight = 0 ∧ s.retire ≠ []) ∧
    (∃ s : State, (s.pocket 7).state = .draining .disabled ∧ (s.pocket 7).inFlight = 0 ∧
      s.retire = [] ∧ s.chain.state = .filling ∧ 0 < s.chain.count ∧ s.chain.work = .none ∧
      descBatchClose s.chain.control = true) ∧
    (∃ s : State, (s.pocket 7).state = .draining .disabled ∧ (s.pocket 7).inFlight = 0 ∧
      s.retire = [] ∧ s.chain.count = 0) ∧ (live.pocket 7).state = .opened :=
  ⟨⟨withPocket 7 (fun x => { x with state := .draining .closed })
      { live with retire := [record 1#16] }, by decide +kernel⟩,
    ⟨withPocket 7 (fun x => { x with state := .draining .disabled })
      { live with chain := filling 0x00040002#32 1 .none }, by decide +kernel⟩,
    ⟨withPocket 7 (fun x => { x with state := .draining .disabled }) live, by decide +kernel⟩,
    by decide +kernel⟩

theorem witness_SweepRangeIsBuilt :
    ∃ s : State, s.Ready ∧ s.sweep = .firstSet 3 ∧ (7 : PocketIx).val < s.plan.pocketCount :=
  ⟨{ live with sweep := .firstSet 3 }, ⟨rfl, rfl⟩, rfl, by decide +kernel⟩

/-- The eighth exclusion is taken, at the last pocket of the range; a ninth is not, nor one in IDLE. -/
theorem witness_SweepExcludeExtendsList :
    (∃ (s : State) (ex : List PocketIx), s.Ready ∧ s.sweep = .rangeSet 1 20 ex ∧ 20 ∉ ex ∧
      ex.length = 7) ∧
    (∃ s : State, s.Ready ∧ ¬(∃ first last ex, s.sweep = .rangeSet first last ex ∧ first ≤ 20 ∧
      20 ≤ last ∧ 20 ∉ ex ∧ ex.length < 8)) :=
  ⟨⟨{ live with sweep := .rangeSet 1 20 [1, 2, 3, 4, 5, 6, 7] }, _, ⟨rfl, rfl⟩, rfl, by decide,
      rfl⟩,
    ⟨{ live with sweep := .rangeSet 1 20 [1, 2, 3, 4, 5, 6, 7, 8] }, ⟨rfl, rfl⟩, by
      rintro ⟨f, l, ex, h, _, _, _, hl⟩
      cases h
      exact absurd hl (by decide)⟩⟩

/-- Selected pockets OPEN with a letter in flight and with none, and DISABLED; selected pockets that all drain; and no range. -/
theorem witness_SweepGoClosesSelected :
    (∃ s : State, s.Ready ∧ s.sweep = .rangeSet 1 7 [3] ∧ (s.pocket 7).inFlight = 1 ∧
      (s.pocket 6).state = .disabled ∧ (s.pocket 1).state = .opened ∧
      (s.pocket 1).inFlight = 0) ∧
    (∃ s : State, s.Ready ∧ s.sweep = .rangeSet 7 7 [] ∧
      ∀ p : PocketIx, 7 ≤ p → p ≤ 7 → (s.pocket p).state = .opened → (s.pocket p).inFlight ≠ 0) ∧
    (∃ s : State, s.Ready ∧ ∀ first last ex, s.sweep ≠ .rangeSet first last ex) :=
  ⟨⟨withPocket 6 (fun x => { x with state := .disabled }) (withPocket 7
        (fun x => { x with inFlight := 1 }) { live with sweep := .rangeSet 1 7 [3] }),
      ⟨rfl, rfl⟩, rfl, by decide +kernel⟩,
    ⟨withPocket 7 (fun x => { x with inFlight := 1 }) { live with sweep := .rangeSet 7 7 [] },
      ⟨rfl, rfl⟩, rfl, by decide +kernel⟩,
    ⟨live, ⟨rfl, rfl⟩, by intro f l ex h; cases h⟩⟩

/-- In OFF with memory free and with the engine's previous access still there; a misaligned base; HELD. -/
theorem witness_ChainStartsAndResumes :
    (∃ s : State, s.Ready ∧ s.chain.state = .off ∧ s.chain.base.toNat % 16 = 0) ∧
    (∃ s : State, s.Ready ∧ s.chain.state = .off ∧ s.atMemory .chain = true) ∧
    (∃ s : State, s.Ready ∧ s.chain.state = .fault ∧ s.chain.base.toNat % 16 ≠ 0) ∧
    (∃ s : State, s.Ready ∧ s.chain.state = .held ∧ s.chain.mode = .hold) :=
  ⟨⟨live, ⟨rfl, rfl⟩, rfl, by decide⟩,
    ⟨atPort .chainDesc true live, ⟨rfl, rfl⟩, rfl, by decide⟩,
    ⟨{ live with chain := { Chain.reset with state := .fault, base := 8#32 } }, ⟨rfl, rfl⟩, rfl,
      by decide⟩,
    ⟨{ live with chain := { Chain.reset with state := .held } }, ⟨rfl, rfl⟩, rfl, rfl⟩⟩

/-- A part whose engine is filling, with one record waiting. -/
def fillingWith (control : Word) (count : Nat) (work : ChainWork) : State :=
  { live with chain := filling control count work, retire := [record 1#16] }

theorem witness_ChainStops :
    live.Ready ∧ live.chain.state = .off ∧
    (∃ s : State, s.Ready ∧ s.chain.state = .filling ∧ s.chain.work = .completion .full) ∧
    (∃ s : State, s.Ready ∧ s.chain.state = .filling ∧ s.atMemory .chain = true ∧
      ∀ e, s.chain.work ≠ .completion e) ∧
    (∃ s : State, s.Ready ∧ s.chain.state = .filling ∧ s.atMemory .chain = false ∧
      ∀ e, s.chain.work ≠ .completion e) :=
  ⟨⟨rfl, rfl⟩, rfl, ⟨fillingWith 2#32 2 (.completion .full), ⟨rfl, rfl⟩, rfl, rfl⟩,
    ⟨atPort .chainRecord false (fillingWith 2#32 1 (.record 3)), ⟨rfl, rfl⟩, rfl, by decide,
      by intro e h; cases h⟩,
    ⟨fillingWith 2#32 1 (.record 0), ⟨rfl, rfl⟩, rfl, by decide, by intro e h; cases h⟩⟩

theorem witness_ChainFlushes :
    (∃ s : State, s.Ready ∧ s.chain.state = .filling ∧ s.chain.count = 0) ∧
    (∃ s : State, s.Ready ∧ s.chain.state = .filling ∧ 0 < s.chain.count ∧
      s.chain.work = .record 7) ∧
    (∃ s : State, s.Ready ∧ s.chain.state = .filling ∧ 0 < s.chain.count ∧
      s.chain.work = .none) ∧
    (∃ s : State, s.Ready ∧ s.chain.state = .held) :=
  ⟨⟨fillingWith 2#32 0 .none, ⟨rfl, rfl⟩, rfl, rfl⟩,
    ⟨fillingWith 2#32 1 (.record 7), ⟨rfl, rfl⟩, rfl, by decide, rfl⟩,
    ⟨fillingWith 2#32 1 .none, ⟨rfl, rfl⟩, rfl, by decide, rfl⟩,
    ⟨{ live with chain := { Chain.reset with state := .held } }, ⟨rfl, rfl⟩, rfl⟩⟩

/-- Each word of a fetch; capacity 0; a misaligned area; an empty and a filled buffer; and each word of a re-read. -/
theorem witness_DescriptorWordsArrive :
    (∀ w ∈ [ChainWork.descriptor 0, .descriptor 1, .descriptor 2],
      ∃ s : State, s.port = some ⟨.chainDesc, ⟨0x1000#32, .read⟩, false⟩ ∧ s.chain.work = w) ∧
    bitsAt 0x000703FF#32 0 10 ≠ 0 ∧ bitsAt 0x00070000#32 0 10 = 0 ∧
    (0x2020#32 : Word).toNat % 32 = 0 ∧ (0x2010#32 : Word).toNat % 32 ≠ 0 ∧
    live.retire = [] ∧ (fillingWith 2#32 0 .none).retire = record 1#16 :: [] ∧
    (∀ w ∈ [ChainWork.rereadControl, .rereadNext true, .rereadNext false],
      ∃ s : State, s.port = some ⟨.chainReread, ⟨0x1000#32, .read⟩, false⟩ ∧ s.chain.work = w) :=
  ⟨fun w _ => ⟨atPort .chainDesc false { live with chain := { Chain.reset with work := w } }, rfl,
      rfl⟩, by decide, by decide, by decide, by decide, rfl, rfl,
    fun w _ => ⟨atPort .chainReread false { live with chain := { Chain.reset with work := w } }, rfl,
      rfl⟩⟩

/-- The first and the last word of a record; and for word 7 an end with BATCH, FULL and FLUSH, and none. -/
theorem witness_RecordWordsAccepted :
    (∀ k ∈ [(0 : Fin 8), 7], ∃ s : State,
      s.port = some ⟨.chainRecord, ⟨0x1000#32, .read⟩, false⟩ ∧ s.chain.work = .record k ∧
      s.chain.state = .filling ∧ s.retire = record 1#16 :: []) ∧
    bitAt (filling 0x00040002#32 0 .none).control 18 = true ∧
    bitAt (filling 0x00000002#32 1 .none).control 18 = false ∧
    (filling 0x00000002#32 1 .none).count + 1 = bitsAt (filling 0x00000002#32 1 .none).control 0 10 ∧
    (filling 0x00000003#32 1 .none).count + 1 ≠
      bitsAt (filling 0x00000003#32 1 .none).control 0 10 :=
  ⟨fun k _ => ⟨atPort .chainRecord false (fillingWith 2#32 1 (.record k)), rfl, rfl, rfl, rfl⟩,
    by decide, by decide, by decide, by decide⟩

/-- An end with STOP; an end with FULL that holds in each mode, one that goes on, and one whose next address is misaligned; and each refusal. -/
theorem witness_CompletionWordAccepted :
    (∀ e ∈ [EndCause.stop, .full], ∃ s : State,
      s.port = some ⟨.chainCompletion, ⟨0x1000#32, .read⟩, false⟩ ∧
      s.chain.work = .completion e ∧ s.chain.stopAfter = false ∧ s.chain.mode = .hold ∧
      bitAt s.chain.control 16 = true) ∧
    (∃ s : State, s.chain.work = .completion .full ∧ s.chain.stopAfter = false ∧
      s.chain.mode = .hold ∧ bitAt s.chain.control 16 = false ∧ s.chain.next.toNat % 16 = 0) ∧
    (∃ s : State, s.chain.work = .completion .full ∧ s.chain.stopAfter = false ∧
      s.chain.mode = .hold ∧ bitAt s.chain.control 16 = false ∧ s.chain.next.toNat % 16 ≠ 0) ∧
    (∃ s : State, s.chain.mode = .lastAddress ∧ s.chain.descAddr = s.chain.last) ∧
    (∀ e ∈ [EndCause.empty, .align], ∃ s : State, s.chain.work = .refusal e) :=
  ⟨fun e _ => ⟨atPort .chainCompletion false (fillingWith 0x00030002#32 2 (.completion e)), rfl, rfl,
      rfl, rfl, by show bitAt 0x00030002#32 16 = true; decide⟩,
    ⟨fillingWith 0x00020002#32 2 (.completion .full), rfl, rfl, rfl, by decide, by decide⟩,
    ⟨{ live with chain := { filling 0x00020002#32 2 (.completion .full) with next := 0x1008#32 } },
      rfl, rfl, rfl, by decide, by decide⟩,
    ⟨{ live with chain := { filling 2#32 2 .none with mode := .lastAddress, last := 0x1000#32 } },
      rfl, rfl⟩,
    fun e _ => ⟨{ live with chain := filling 0#32 0 (.refusal e) }, rfl⟩⟩

/-- Each kind of access, abandoned or not; and an abandoned one that a fetch or a completion waits for. -/
theorem witness_ChainMemoryErrorFaults :
    (∀ job ∈ [Job.chainDesc, .chainReread, .chainRecord, .chainCompletion],
      ∀ abandoned : Bool, ∃ s : State, s.port = some ⟨job, ⟨0x1000#32, .read⟩, abandoned⟩) ∧
    (∀ w ∈ [ChainWork.descriptor 0, .completion .stop], ∃ s : State,
      s.port = some ⟨.chainDesc, ⟨0x1000#32, .read⟩, true⟩ ∧ s.chainReq.req = none ∧
      s.chain.work = w) :=
  ⟨fun job _ abandoned => ⟨atPort job abandoned live, rfl⟩,
    fun w _ => ⟨atPort .chainDesc true (fillingWith 2#32 0 w), rfl, rfl, rfl⟩⟩

/-- A partial write, an unknown opcode, a part that executes a load, and for each refusal of the owner a state. -/
theorem witness_CommandsRefused :
    (0x7#4 : Enables) ≠ 0xF#4 ∧
    (∃ s : State, s.resetLow = false ∧ s.cmd.executing = true) ∧
    (∃ s : State, s.Ready ∧ s.transport.line = .stopped ∧ s.plan.state ≠ .valid) ∧
    (live.Ready ∧ live.transport.line ≠ .stopped ∧ live.plan.pocketCount = (8 : PocketIx).val ∧
      (live.pocket 7).state ≠ .closed ∧ (live.pocket 7).state ≠ .disabled ∧
      live.stationAbsent 2 = true ∧ live.stationAbsent 1 = false ∧
      (live.station 1).framing ≠ .off ∧ ¬(live.chain.state = .held ∧ live.chain.mode = .hold) ∧
      live.chain.state = .off) ∧
    ((withPocket 7 (fun x => { x with state := .disabled }) live).pocket 7).state = .disabled ∧
    ((withStation 1 Station.disabled live).station 1).framing = .off ∧
    ((fillingWith 2#32 0 .none).chain.state ≠ .off ∧
      (fillingWith 2#32 0 .none).chain.state ≠ .fault) :=
  ⟨by decide, ⟨after (.loadPlan 0#24) live, by decide +kernel⟩, ⟨State.reset, ⟨rfl, rfl⟩, rfl,
    by decide⟩, ⟨⟨rfl, rfl⟩, by decide +kernel⟩, by decide +kernel, by decide +kernel,
    by decide +kernel⟩

/-- A FIFO with room, and a full one under a mask that admits an acknowledgment. -/
theorem witness_NoticeCommandsTaken :
    live.Ready ∧ live.notice.fifo.length < 32 ∧
    (∃ s : State, s.Ready ∧ 32 ≤ s.notice.fifo.length ∧ s.notice.mask.getLsbD 0 = true) ∧
    (∃ s : State, s.Ready ∧ s.notice.mask.getLsbD 0 = false) :=
  ⟨⟨rfl, rfl⟩, by decide,
    ⟨{ live with notice := { live.notice with
        fifo := List.replicate 32 { kind := .feedHold } } }, ⟨rfl, rfl⟩, by decide⟩,
    ⟨{ live with notice := { live.notice with mask := 0xFE#8 } }, ⟨rfl, rfl⟩, by decide⟩⟩

/-- The notice ring with a producer index, a FIFO and a word in progress. -/
def ringAt (producer : Nat) (fifo : List Notice) (writing : Option (Fin 4)) (s : State) : State :=
  { s with notice := { s.notice with producer := producer, fifo := fifo, writing := writing } }

/-- The greatest valid consumer index and the least invalid one; a ring that the index gives room; an entry being written in a ring that the index makes full, or not; a HELD engine in LAST_ADDRESS mode. -/
theorem witness_SnoopedWordsTaken :
    live.resetLow = false ∧ (63#32 : Word).toNat < live.plan.ringSize ∧
    live.plan.ringSize ≤ (64#32 : Word).toNat ∧
    (∃ (s : State) (h : Notice), s.plan.layout = some layout ∧ s.notice.ringFault = false ∧
      (s.notice.producer + 1) % s.plan.ringSize ≠ (63#32 : Word).toNat ∧
      s.notice.fifo = h :: [] ∧ s.notice.writing = none) ∧
    (∃ s : State, s.notice.writing ≠ none ∧
      (s.notice.producer + 1) % s.plan.ringSize = (0#32 : Word).toNat) ∧
    (∃ s : State, s.notice.writing ≠ none ∧
      (s.notice.producer + 1) % s.plan.ringSize ≠ (63#32 : Word).toNat) ∧
    (∃ s : State, s.chain.state = .held ∧ s.chain.mode = .lastAddress ∧
      (0x1010#32 : Word) ≠ s.chain.descAddr) :=
  ⟨rfl, by decide, by decide, ⟨ringAt 0 [{ kind := .feedHold }] none live, _, rfl, rfl, by decide,
      rfl, rfl⟩,
    ⟨ringAt 63 [{ kind := .feedHold }] (some 2) live, by decide⟩,
    ⟨ringAt 63 [{ kind := .feedHold }] (some 2) live, by decide⟩,
    ⟨{ live with chain := { Chain.reset with
        state := .held, mode := .lastAddress, descAddr := 0x1000#32 } }, rfl, rfl, by decide⟩⟩

/-- Words 2 and 3 of an entry, the last one of the ring among them; with a next entry and without. -/
theorem witness_NoticeWordsWritten :
    (∀ k : Fin 4, ∃ (s : State) (h : Notice), s.plan.layout = some layout ∧
      s.notice.fifo = h :: [] ∧ s.notice.writing = some k ∧
      s.port = some ⟨.noticeWord, ⟨0x1000#32, .read⟩, false⟩) ∧
    (∃ (s : State) (h h' : Notice), s.plan.layout = some layout ∧ s.notice.fifo = h :: h' :: [] ∧
      s.notice.writing = some 3 ∧ s.notice.ringFault = false ∧ s.notice.producer = 63 ∧
      ((63 + 1) % layout.noticeSize + 1) % layout.noticeSize ≠ s.notice.consumer) ∧
    (∃ (s : State) (h : Notice), s.port = some ⟨.noticeWord, ⟨0x1000#32, .read⟩, true⟩ ∧
      s.plan.layout = some layout ∧ s.notice.fifo = h :: []) ∧
    (∃ s : State, s.port = some ⟨.noticeWord, ⟨0x1000#32, .read⟩, true⟩ ∧
      s.plan.layout = none ∧ s.notice.fifo = []) ∧
    (∃ (s : State) (h : Notice), s.plan.layout = some layout ∧ s.notice.fifo = h :: [] ∧
      s.resetLow = false ∧ s.notice.writing = some 3 ∧
      s.port = some ⟨.noticeWord, ⟨0x1000#32, .read⟩, false⟩ ∧
      (s.notice.producer + 1) % layout.noticeSize = (0#32 : Word).toNat ∧
      (63#32 : Word).toNat < layout.noticeSize) :=
  ⟨fun k => ⟨atPort .noticeWord false (ringAt 0 [{ kind := .feedHold }] (some k) live), _, rfl, rfl,
      rfl, rfl⟩,
    ⟨ringAt 63 [{ kind := .feedHold }, { kind := .lineState }] (some 3) live, _, _, rfl, rfl, rfl,
      rfl, rfl, by decide⟩,
    ⟨atPort .noticeWord true (ringAt 0 [{ kind := .feedHold }] none live), _, rfl, rfl, rfl⟩,
    ⟨resetAssert (atPort .noticeWord false live), rfl, rfl, rfl⟩,
    ⟨atPort .noticeWord false (ringAt 63 [{ kind := .feedHold }] (some 3) live), _, rfl, rfl, rfl,
      rfl, rfl, by decide, by decide⟩⟩

/-- Writes refused by each guard, at the first and last words of their regions, and one that is forwarded. -/
theorem witness_WritesGuarded :
    live.resetLow = false ∧ live.backplane.busy = none ∧
    live.writeRefusal 0x40000#32 5#3 = none ∧
    live.writeRefusal 0x0C#32 0#3 = none ∧ live.writeRefusal 0x0C#32 1#3 = some .controlWord ∧
    live.writeRefusal 0x10#32 1#3 = none ∧
    live.writeRefusal 0x100#32 0#3 = some .statusOverlay ∧
    live.writeRefusal 0x17C#32 0#3 = some .statusOverlay ∧
    live.writeRefusal 0x180#32 0#3 = none ∧
    live.writeRefusal 0x200#32 0#3 = some .pocketOverlay ∧
    live.writeRefusal 0x3FC#32 0#3 = some .pocketOverlay ∧
    live.writeRefusal 0x400#32 0#3 = none ∧
    live.writeRefusal 0x4007FC#32 1#3 = none ∧
    live.writeRefusal 0x400000#32 0#3 = some .inductionRing ∧
    live.writeRefusal 0x410FFC#32 3#3 = some (.stationRing 0) ∧
    live.writeRefusal 0x4203FC#32 4#3 = some .gateWindow ∧
    live.writeRefusal 0x430000#32 0#3 = some .noticeRing ∧
    (after (.loadPlan 0x000400#24) live).imageCovers 0x1003C#32 = true ∧
    (after (.loadPlan 0x000400#24) live).writeRefusal 0x1003C#32 0#3 = some .planImage := by
  decide +kernel

/-- The first and last words of each part of the control area and of two windows. -/
theorem witness_WritesGuarded_regions :
    (live.inControlArea 0xFFC#32 = true ∧ live.inControlArea 0x1000#32 = false) ∧
    [0x0#32, 0x4#32, 0x8#32, 0xC#32, 0x10#32, 0xFC#32, 0x100#32, 0x17C#32, 0x180#32, 0x1FC#32,
      0x200#32, 0x2FC#32, 0x300#32, 0x3FC#32, 0x400#32, 0xFFC#32].map live.regionOf =
      [.commandWord, .consumerIndex, .basePointer, .lastPointer, .ordinary, .ordinary,
        .statusBlock 0, .statusBlock 31, .ordinary, .ordinary, .pocketStatus 0, .pocketStatus 63,
        .pocketBatch 0, .pocketBatch 63, .ordinary, .ordinary] ∧
    live.regionOf 0x4007FC#32 = .window layout.inductionWindow 511 ∧
    live.regionOf 0x400800#32 = .ordinary := by decide +kernel

theorem witness_ReadsOverlaid :
    live.resetLow = false ∧ live.backplane.busy = none ∧
    live.regionOf 0x17C#32 = .statusBlock 31 ∧
    live.regionOf 0x2FC#32 = .pocketStatus 63 ∧ live.regionOf 0x3FC#32 = .pocketBatch 63 ∧
    live.regionOf 0x0#32 = .commandWord ∧
    live.regionOf 0x4203FC#32 = .window layout.gateWindow 255 ∧
    live.gateMaster = some 4#3 ∧ live.regionOf 0x40000#32 = .ordinary := by decide +kernel

/-- A requester at wait count 4, a passthrough access alone, and an own access alone. -/
theorem witness_ArbiterGrants :
    (∃ s : State, s.resetLow = false ∧ s.port = none ∧
      s.chainReq = ⟨some ⟨.chainDesc, ownRead 0x1000#32⟩, 4⟩ ∧ s.noticeReq.wait ≤ 4 ∧
      s.planReq.wait ≤ 4) ∧
    (∃ (s : State) (f : Forwarded), s.port = none ∧ s.backplane.busy = some f ∧
      f.granted = false) ∧
    (∃ s : State, s.noticeReq.req = none ∧ s.chainReq.req = none ∧ s.planReq.req = none ∧
      ∀ f, s.backplane.busy = some f → f.granted = true) ∧
    (∃ s : State, s.port.isSome = true) :=
  ⟨⟨{ live with chainReq := ⟨some ⟨.chainDesc, ownRead 0x1000#32⟩, 4⟩ }, rfl, rfl, rfl, by decide,
      by decide⟩,
    ⟨busyWith (forwarded .read .ordinary false) live, _, rfl, rfl, rfl⟩,
    ⟨live, rfl, rfl, rfl, by intro f h; cases h⟩, ⟨atPort .chainDesc false live, rfl⟩⟩

/-- The part with a forwarded access that memory has been given. -/
def servedAt (f : Forwarded) (abandoned : Bool) (s : State) : State :=
  { busyWith f s with
    port := some ⟨.passthrough f.access.master, ⟨f.access.addr, f.access.op⟩, abandoned⟩ }

/-- A forwarded access at memory, for a write of each region that has an owner. -/
theorem witness_PassthroughAnswered :
    (∀ (f : Forwarded) (abandoned : Bool), ∃ s : State,
      s.port = some ⟨.passthrough f.access.master, ⟨f.access.addr, f.access.op⟩, abandoned⟩ ∧
      s.backplane.busy = some f ∧ s.resetLow = false) ∧
    Command.start.word = 0x10#32 ∧
    layout.inductionWindow ∈ live.layoutWindows ∧ 4 * 511 < layout.inductionWindow.length ∧
    layout.stationWindow 0 ∈ live.layoutWindows ∧ 4 * 1023 < (layout.stationWindow 0).length ∧
    layout.stationWindow 0 ∉ State.reset.layoutWindows :=
  ⟨fun f abandoned => ⟨servedAt f abandoned live, rfl, rfl, rfl⟩,
    by decide +kernel⟩

set_option maxRecDepth 20000 in
/-- A command unit in IDLE; the fifteenth word of a block; and a block 0, a block 1, a pocket block and a rule block that pass. -/
theorem witness_PlanWordsRead :
    live.Ready ∧
    (∃ (s : State) (ld : Load), s.plan.load = some ld ∧
      s.port = some ⟨.planRead, ⟨0x1000#32, .read⟩, false⟩ ∧ (ld.words ++ [0#32]).length = 15) ∧
    (∃ bs : List Byte, blockCrcGood bs = true ∧ le16At bs 60 = 0 ∧
      (∀ c ∈ (Layout.mk (bs.take 60)).checks 0 0, c.2 = true)) ∧
    (∃ bs : List Byte, blockCrcGood bs = true ∧ le16At bs 60 = 1 ∧
      (∀ c ∈ paramChecks bs 8, c.2 = true)) ∧
    (∃ bs : List Byte, blockCrcGood bs = true ∧ le16At bs 60 = 2 ∧
      pocketBlockFailure bs 0 1 = none) ∧
    (∃ bs : List Byte, ruleBlockFailure bs 0 3 2 = none) :=
  ⟨⟨rfl, rfl⟩,
    ⟨atPort .planRead false { live with plan := { live.plan with
        load := some { loadAt 0 none none with words := List.replicate 14 0#32 } } }, _, rfl, rfl, rfl⟩,
    ⟨sealBlock (layoutBytes 8) 0#8, by decide +kernel⟩, ⟨sealBlock paramBytes 1#8, by decide +kernel⟩,
    ⟨sealBlock pocketBytes 2#8, by decide +kernel⟩,
    ⟨[0x11, 2, 0xFF, 0xFF, 3, 0, 0, 0, 3, 0, 0, 0, 0, 2], by decide +kernel⟩⟩

set_option maxRecDepth 20000 in
/-- A block for each cause of a failure; and the conditions at values where they begin to fail. -/
theorem witness_LoadFails :
    (∃ (s : State) (ld : Load), s.plan.load = some ld ∧ ld.words.length = 15 ∧
      s.resetLow = false ∧ s.cmd.executing = true ∧
      s.port = some ⟨.planRead, ⟨0x1000#32, .read⟩, false⟩) ∧
    blockCrcGood (List.replicate 63 0#8 ++ [1#8]) = false ∧
    (∃ bs : List Byte, blockCrcGood bs = true ∧ le16At bs 60 ≠ 2) ∧
    (∃ bs : List Byte, blockCrcGood bs = true ∧ le16At bs 60 = 0 ∧
      firstFailure ((Layout.mk (bs.take 60)).checks 0 0) = some .magic) ∧
    (∃ bs : List Byte, blockCrcGood bs = true ∧ le16At bs 60 = 0 ∧
      firstFailure ((Layout.mk (bs.take 60)).checks 0 0) = none ∧
      live.plan.layout ≠ some ⟨bs.take 60⟩ ∧ live.transport.line ≠ .stopped) ∧
    (∃ bs : List Byte, blockCrcGood bs = true ∧ le16At bs 60 = 1 ∧
      firstFailure (paramChecks bs 8) = some .minGrade) ∧
    pocketBlockFailure (sealBlock [] 2#8) 0 1 = some 0 ∧
    ruleBlockFailure (sealBlock [0x08#8] 3#8) 0 1 1 = some 0 ∧
    (HeaderField.pocketCount.Holds (layoutBytes 64) 0 0 0 ∧
      ¬HeaderField.pocketCount.Holds (layoutBytes 65) 0 0 0) ∧
    (HeaderField.defaultPocket.Holds paramBytes 0 0 7 ∧
      ¬HeaderField.defaultPocket.Holds paramBytes 0 0 6) ∧
    (PocketPositionGood (List.replicate 48 0#8 ++ pocketBytes) 6 6 7 ∧
      ¬PocketPositionGood (List.replicate 48 0#8 ++ pocketBytes) 6 6 6) ∧
    (RulePositionGood [] 4 4 1 4 ∧ RulePositionGood [] 4 4 1 5 ∧
      ¬RulePositionGood [] 4 4 0 5) :=
  ⟨⟨loadingBlock (loadAt 2 (some ⟨layoutBytes 1⟩) (some params)) (sealBlock pocketBytes 2#8) live, _,
      rfl, by decide +kernel, rfl, rfl, rfl⟩,
    by decide +kernel, ⟨sealBlock [] 3#8, by decide +kernel⟩, ⟨sealBlock [] 0#8, by decide +kernel⟩,
    ⟨sealBlock (layoutBytes 9) 0#8, by decide +kernel⟩,
    ⟨sealBlock [2, 0x0A, 0, 0, 0, 0, 6, 7, 4, 3, 0xFF, 0] 1#8, by decide +kernel⟩,
    by decide +kernel, by decide +kernel, by
      unfold HeaderField.Holds
      decide +kernel, by
      unfold HeaderField.Holds
      decide +kernel, by
      unfold PocketPositionGood
      decide +kernel, by
      unfold RulePositionGood
      decide +kernel⟩

/-- A load that changes the layout while the FIFO holds an entry, and with an empty FIFO. -/
theorem witness_LoadCompletes_ring :
    ∃ (ld : Load) (s : State) (h : Notice), ld.changed = true ∧ s.notice.fifo = h :: [] ∧
      decide (s.notice.fifo ≠ [] ∧ 1 % layout.noticeSize ≠ 0) = true ∧
      decide (live.notice.fifo ≠ [] ∧ 1 % layout.noticeSize ≠ 0) = false :=
  ⟨{ loadAt 2 (some layout) (some params) with changed := true },
    { live with notice := { live.notice with fifo := [{ kind := .feedHold }] } },
    { kind := .feedHold }, rfl, rfl, by decide, by decide⟩

set_option maxRecDepth 20000 in
/-- The last block of an image of three blocks, its pocket block; and of one of four, its rule block. -/
theorem witness_LoadCompletes :
    (∃ (s : State) (ld : Load) (data : Word) (bs : List Byte), s.plan.load = some ld ∧
      s.port = some ⟨.planRead, ⟨0x1000#32, .read⟩, false⟩ ∧ ld.words.length = 15 ∧
      bs = wordsBytes (ld.words ++ [data]) ∧ blockCrcGood bs = true ∧ le16At bs 60 = ld.block ∧
      ld.layout = some ⟨layoutBytes 1⟩ ∧ ld.params = some params ∧
      ld.block + 1 = imageBlocks (Layout.mk (layoutBytes 1)).pocketCount params.ruleCount ∧
      ld.block < 2 + pocketBlocks (Layout.mk (layoutBytes 1)).pocketCount ∧
      pocketBlockFailure bs (ld.block - 2) (Layout.mk (layoutBytes 1)).pocketCount = none) ∧
    (∃ (ld : Load) (bs : List Byte), blockCrcGood bs = true ∧ le16At bs 60 = ld.block ∧
      ld.block + 1 = imageBlocks 1 1 ∧ 2 + pocketBlocks 1 ≤ ld.block ∧
      ruleBlockFailure bs (ld.block - 2 - pocketBlocks 1) 1 1 = none) :=
  ⟨⟨loadingBlock (loadAt 2 (some ⟨layoutBytes 1⟩) (some params)) (sealBlock pocketBytes 2#8) live, _,
      lastWord (sealBlock pocketBytes 2#8), sealBlock pocketBytes 2#8, rfl, rfl, by decide +kernel,
      by decide +kernel, by decide +kernel, by decide +kernel, rfl, rfl, by decide +kernel,
      by decide +kernel, by decide +kernel⟩,
    ⟨loadAt 3 (some ⟨layoutBytes 1⟩) (some { params with ruleCount := 1 }),
      sealBlock [0, 0, 0xFF, 0xFF, 0, 0, 0, 0, 0, 0, 0, 0] 3#8, by decide +kernel⟩⟩

/-- A running line with a decided letter and a letter that collects meets the invariants, and steps to a next state. -/
theorem witness_StepsKeepInvariants :
    ∃ s t : State, s.Inv ∧ s.pending = [.encAdvance] ∧ step s = .next t :=
  ⟨{ carrying [decidedTo 2 (letter 0x0101#16), letter 0x0102#16] 1100#24 with
      pending := [.encAdvance] }, _,
    ⟨⟨by decide, by decide, by decide, by decide, by decide, by decide,
        by decide⟩,
      by
        unfold State.SlotsDistinct
        decide,
      ⟨by decide +kernel, by decide, by decide, by decide, by decide⟩,
      ⟨by decide, by decide, by decide +kernel, by intro ld h; cases h⟩,
      ⟨by decide +kernel, by decide +kernel, by
        intro p t
        cases t <;> revert p <;> decide +kernel⟩⟩, rfl, rfl⟩

theorem witness_LettersConserved :
    ∃ (s t : State), Instr.purge ≠ .resetAssert ∧ (∀ cb cm, Instr.purge ≠ .resetRelease cb cm) ∧
      s.transit.letters ≠ [] ∧ exec .purge s = .next t :=
  ⟨carrying [letter 0x0101#16] 1100#24, _, by decide, (fun _ _ h => nomatch h), by decide, rfl⟩

/-- A DECIDED letter that is still in transit after an advance. -/
theorem witness_DecisionsStand :
    ∃ (s t : State) (l : Letter) (d : Decision), s.SlotsDistinct ∧
      exec .encAdvance s = .next t ∧ l ∈ s.transit.letters ∧ l.state = .decided d ∧
      l ∈ t.transit.letters :=
  ⟨carrying [decidedTo 2 (letter 0x0101#16)] 1100#24, _, decidedTo 2 (letter 0x0101#16),
    ⟨2, 2, .rule, false, some 0⟩, by
      unfold State.SlotsDistinct
      decide, rfl, by decide, rfl, by decide +kernel⟩

end Sys2Proof.Tests
end

section
/-! PROOFS. Positions on the 24-bit counter and tags in the circle of 65536, and the checks that compare them (R47, R48, R59, R60, R76). -/

namespace Sys2Proof.Proofs

open Sys2Proof Sys2Proof.Machine Sys2Proof.Laws

/-! ### Positions -/

/-- The half-circle rule of R47, on the numbers of the counter and the position. -/
theorem positionReached_iff (counter p : Position) :
    positionReached counter p = true ↔
      (counter.toNat + 2 ^ 24 - p.toNat) % 2 ^ 24 < 2 ^ 23 := by
  have wraps : 2 ^ 24 - p.toNat + counter.toNat = counter.toNat + 2 ^ 24 - p.toNat := by omega
  rw [positionReached, decide_eq_true_iff, BitVec.toNat_sub, wraps]

theorem layoutNat_of_layout {s : State} {lay : Layout} (h : s.plan.layout = some lay)
    (f : Layout → Nat) : s.layoutNat f = f lay := by
  rw [State.layoutNat, h]

theorem lostReached_of_layout {s : State} {lay : Layout} (h : s.plan.layout = some lay)
    (l : Letter) : s.lostReached l =
      positionReached s.transport.position (l.entryPos + BitVec.ofNat 24 lay.lostDistance) := by
  rw [State.lostReached, layoutNat_of_layout h, positionAfter]

theorem decideReached_of_layout {s : State} {lay : Layout} (h : s.plan.layout = some lay)
    (l : Letter) : s.decideReached l =
      positionReached s.transport.position (l.entryPos + BitVec.ofNat 24 lay.decideDistance) := by
  rw [State.decideReached, layoutNat_of_layout h, positionAfter]

/-- Settles O7: the watch is the lookup of the first COLLECTING letter, the comparison is the subtraction of the 24-bit counter, and both points use it under the layout's distances. -/
theorem positionReachedWithinHalfCircle : Obligations.PositionReachedWithinHalfCircle :=
  ⟨decideWatch_eq_some_iff, positionReached_iff,
    fun _ l _ h => ⟨lostReached_of_layout h l, decideReached_of_layout h l⟩⟩

/-! ### Tags -/

/-- The circle of R59, on the numbers of the two tags. -/
theorem tagOlder_iff (a b : Tag) : tagOlder a b = true ↔
    1 ≤ (b.toNat + 65536 - a.toNat) % 65536 ∧ (b.toNat + 65536 - a.toNat) % 65536 ≤ 32767 := by
  have wraps : 2 ^ 16 - a.toNat + b.toNat = b.toNat + 65536 - a.toNat := by omega
  simp only [tagOlder, Bool.and_eq_true, decide_eq_true_iff, BitVec.toNat_sub, wraps]

/-- Check 4 of R76 holds a record back only where a LOCKED station has accepted a newer tag. -/
theorem outOfOrder_iff (x : Station) (t : Tag) : x.outOfOrder t = true ↔
    x.framing = .locked ∧ ∃ last, x.lastTag = some last ∧ tagOlder t last = true := by
  cases hframing : x.framing with
  | locked => cases hlast : x.lastTag <;> simp [Station.outOfOrder, hframing, hlast]
  | hunt => simp [Station.outOfOrder, hframing]
  | off => simp [Station.outOfOrder, hframing]

/-- The last accepted tag that stops an entry, as entryRefusal picks it. -/
theorem lastTag_notOlder_iff (s : State) (tag last : Tag) :
    s.transit.lastTag.filter (fun t => !tagOlder t tag) = some last ↔
      s.transit.lastTag = some last ∧ tagOlder last tag = false := by
  simp [Option.filter_eq_some_iff]

/-- TAG_ORDER is the fourth check of R60: the entry has passed the three before it, and the last accepted tag is not older than its own. -/
theorem entryRefusal_eq_tagOrder_iff (s : State) (e : Option Entry) (tag : Tag) (arg : Word) :
    s.entryRefusal e tag = some (.tagOrder, arg) ↔
      s.transport.line ≠ .stopped ∧ e.isSome = true ∧
      (s.transitCount ≠ Config.maxTransit ∧ s.occupancySum ≠ Config.maxSum) ∧
      ∃ last, s.transit.lastTag = some last ∧ tagOlder last tag = false ∧
        last.setWidth 32 = arg := by
  unfold State.entryRefusal
  split
  case isTrue stopped => simp [stopped]
  case isFalse line =>
    split
    case isTrue bad => simp [Option.isNone_iff_eq_none.1 bad]
    case isFalse good =>
      split
      case isTrue full =>
        have noRoom : ¬ (s.transitCount ≠ Config.maxTransit ∧ s.occupancySum ≠ Config.maxSum) := by
          rwa [← not_or, not_not]
        simp [noRoom]
      case isFalse room =>
        have passed : e.isSome = true := by simpa [Option.isSome_iff_ne_none] using good
        have order (last : Tag) := lastTag_notOlder_iff s tag last
        cases hstop : s.transit.lastTag.filter (fun t => !tagOlder t tag) with
        | some last =>
          obtain ⟨hlast, notOlder⟩ := (order last).1 hstop
          simp [line, passed, not_or.1 room, hlast, notOlder]
        | none =>
          have inOrder : ¬ ∃ last, s.transit.lastTag = some last ∧ tagOlder last tag = false ∧
              last.setWidth 32 = arg := by
            rintro ⟨last, hlast, notOlder, -⟩
            exact absurd ((order last).2 ⟨hlast, notOlder⟩) (by simp [hstop])
          cases s.letterBySlot (slotOf tag) <;> simp [inOrder]

theorem entryRefusal_tagOrder_of_room {s : State} {e : Entry} {last : Tag}
    (hline : s.transport.line ≠ .stopped) (hcount : s.transitCount ≠ 32)
    (hsum : s.occupancySum ≠ 64) (hlast : s.transit.lastTag = some last) :
    (∃ arg, s.entryRefusal (some e) e.tag = some (.tagOrder, arg)) ↔
      tagOlder last e.tag = false := by
  simp [entryRefusal_eq_tagOrder_iff, hline, hlast, Config.maxTransit, Config.maxSum, hcount, hsum]

/-- Settles O8: slots by definition and lookup, the circle by the 16-bit subtraction, and the two checks by the branches that lead to them. -/
theorem tagsComparedInCircle : Obligations.TagsComparedInCircle :=
  ⟨fun _ => rfl, letterBySlot_eq_some_iff, tagOlder_iff, outOfOrder_iff,
    fun _ _ _ => entryRefusal_tagOrder_of_room⟩

end Sys2Proof.Proofs
end

section
/-! PROOFS. The check digit of an account code, and the valid flag of an ACCOUNT read (R82, R83; 10.1). -/

namespace Sys2Proof.Proofs

open Sys2Proof Sys2Proof.Machine

/-! ### The check digit -/

/-- The fold over the 17 positions as one sum, the digits at odd positions (counted from 1 at the left) taken out by their common weight. -/
theorem keyWeightedSum_eq (key : AccountKey) : keyWeightedSum key =
    3 * (keyDigit key 0 + keyDigit key 2 + keyDigit key 4 + keyDigit key 6 + keyDigit key 8 +
      keyDigit key 10 + keyDigit key 12 + keyDigit key 14 + keyDigit key 16) +
    (keyDigit key 1 + keyDigit key 3 + keyDigit key 5 + keyDigit key 7 + keyDigit key 9 +
      keyDigit key 11 + keyDigit key 13 + keyDigit key 15) := by
  have positions : List.range 17 = [0, 1, 2, 3, 4, 5, 6, 7, 8, 9, 10, 11, 12, 13, 14, 15, 16] := rfl
  simp only [keyWeightedSum, positions, List.foldl_cons, List.foldl_nil, Nat.reduceMod,
    Nat.reduceEqDiff, if_true, if_false]
  omega

theorem accountCodeGood_iff (key : AccountKey) (check : BitVec 4) :
    accountCodeGood key check = true ↔
      (∀ n < 17, keyDigit key n ≤ 9) ∧ check.toNat ≤ 9 ∧ check.toNat = keyCheckDigit key := by
  simp only [accountCodeGood, Bool.and_eq_true, List.all_eq_true, List.mem_range,
    decide_eq_true_iff, and_assoc]

/-! ### The valid flag of a read -/

theorem recordRead_eq_some_iff (st : StationIx) (minGrade : Nat) (ws : List Word) (r : Read) :
    recordRead st minGrade ws = some r ↔ ∃ body, recordBody ws = some body ∧
      r = ⟨st, body, recordGrade ws, decide (minGrade ≤ recordGrade ws) && body.inRange⟩ := by
  simp only [recordRead, Option.map_eq_some_iff, eq_comm (b := r)]

theorem recordBody_of_account {ws : List Word} (h : recordKind ws = 0) :
    recordBody ws = some (.account (recordKey ws) (recordCheck ws)) := by
  simp only [recordBody, h]

theorem recordRead_account_valid_iff {st : StationIx} {minGrade : Nat} {ws : List Word} {r : Read}
    (account : recordKind ws = 0) (hread : recordRead st minGrade ws = some r) :
    r.valid = true ↔
      minGrade ≤ recordGrade ws ∧ accountCodeGood (recordKey ws) (recordCheck ws) = true := by
  obtain ⟨body, hbody, rfl⟩ := (recordRead_eq_some_iff st minGrade ws r).1 hread
  obtain rfl : .account (recordKey ws) (recordCheck ws) = body :=
    Option.some.inj ((recordBody_of_account account).symm.trans hbody)
  rw [Bool.and_eq_true, decide_eq_true_iff, ReadBody.inRange]

/-- Settles O22: the packing by definition, the test by the weighted sum written out, an ACCOUNT read's valid flag through the test, and the two codes by evaluation. -/
theorem checkDigitHolds : Obligations.CheckDigitHolds := by
  refine ⟨fun _ => ⟨rfl, rfl⟩, fun _ _ => rfl, fun key check => ?test,
    fun _ _ _ _ => recordRead_account_valid_iff, ?introduction, ?cycleChanged⟩
  case test => rw [accountCodeGood_iff, keyCheckDigit, keyWeightedSum_eq]
  case introduction => decide
  case cycleChanged => decide

end Sys2Proof.Proofs
end

section
/-! PROOFS. The read summary: the key and the conflict of a read set, its reason class and forward present (R99, R100). -/

namespace Sys2Proof.Proofs

open Sys2Proof Sys2Proof.Machine Sys2Proof.Laws

/-! ### The valid reads of each kind -/

theorem validReason_eq_some_iff (r : Read) (c : Byte) :
    r.validReason = some c ↔ r.valid = true ∧ r.body = .endorse c := by
  unfold Read.validReason
  split <;> simp_all

theorem validReason_eq_none_iff (r : Read) :
    r.validReason = none ↔ (r.valid = true → ∀ c, r.body ≠ .endorse c) := by
  simp only [Option.eq_none_iff_forall_ne_some, ne_eq, validReason_eq_some_iff, not_and]
  exact forall_comm

theorem validForward_iff (r : Read) :
    r.validForward = true ↔ r.valid = true ∧ r.body = .forward := by
  rw [Read.validForward, Bool.and_eq_true, beq_iff_eq]

/-! ### The key and the conflict (R99) -/

theorem summarize_key_of_keys_nil {reads : List Read} (h : reads.filterMap Read.validKey = []) :
    (summarize reads).key = none := by
  simp only [summarize, h]

theorem summarize_key_of_keys_cons {reads : List Read} {k : AccountKey} {ks : List AccountKey}
    (h : reads.filterMap Read.validKey = k :: ks) :
    (summarize reads).key = if ks.all (· == k) then some k else none := by
  simp only [summarize, h]

theorem summarize_clash_eq (reads : List Read) : (summarize reads).clash =
    (!(reads.filterMap Read.validKey).isEmpty && (summarize reads).key.isNone) := rfl

/-- The key in terms of the list of valid keys: its first element, where every other one equals it. -/
theorem summarize_key_iff_keys (reads : List Read) (k : AccountKey) :
    (summarize reads).key = some k ↔
      k ∈ reads.filterMap Read.validKey ∧ ∀ k' ∈ reads.filterMap Read.validKey, k' = k := by
  cases h : reads.filterMap Read.validKey with
  | nil => simp [summarize_key_of_keys_nil h]
  | cons first rest =>
    rw [summarize_key_of_keys_cons h, Option.ite_none_right_eq_some, List.all_eq_true]
    simp only [beq_iff_eq, Option.some.injEq]
    constructor
    · rintro ⟨agree, rfl⟩
      exact ⟨List.mem_cons_self, List.forall_mem_cons.2 ⟨rfl, agree⟩⟩
    · rintro ⟨-, all⟩
      obtain ⟨rfl, agree⟩ := List.forall_mem_cons.1 all
      exact ⟨agree, rfl⟩

/-- A conflict in terms of the list of valid keys. A key that is absent although some `k` is valid fails to be `k` by a valid one that differs from it. -/
theorem summarize_clash_iff_keys (reads : List Read) : (summarize reads).clash = true ↔
    ∃ k ∈ reads.filterMap Read.validKey, ∃ k' ∈ reads.filterMap Read.validKey, k ≠ k' := by
  rw [summarize_clash_eq, Bool.and_eq_true, Bool.not_eq_true', List.isEmpty_eq_false_iff_exists_mem,
    Option.isNone_iff_eq_none]
  constructor
  · rintro ⟨⟨k, hk⟩, absent⟩
    have notKey : ¬ ((summarize reads).key = some k) := by simp [absent]
    rw [summarize_key_iff_keys] at notKey
    push Not at notKey
    obtain ⟨k', hk', differ⟩ := notKey hk
    exact ⟨k, hk, k', hk', differ.symm⟩
  · rintro ⟨k, hk, k', hk', differ⟩
    refine ⟨⟨k, hk⟩, Option.eq_none_iff_forall_ne_some.2 fun key hkey => differ ?_⟩
    obtain ⟨-, agree⟩ := (summarize_key_iff_keys reads key).1 hkey
    exact (agree k hk).trans (agree k' hk').symm

theorem summarize_key_iff (reads : List Read) (k : AccountKey) :
    (summarize reads).key = some k ↔
      (∃ r ∈ reads, r.validKey = some k) ∧ ∀ r ∈ reads, ∀ k', r.validKey = some k' → k' = k := by
  simp only [summarize_key_iff_keys, List.mem_filterMap, forall_exists_index, and_imp]
  exact and_congr_right fun _ =>
    ⟨fun agree r hr k' hk => agree k' r hr hk, fun agree k' r hr hk => agree r hr k' hk⟩

theorem summarize_clash_iff (reads : List Read) : (summarize reads).clash = true ↔
    ∃ r ∈ reads, ∃ x ∈ reads, ∃ k k', r.validKey = some k ∧ x.validKey = some k' ∧ k ≠ k' := by
  simp only [summarize_clash_iff_keys, List.mem_filterMap]
  constructor
  · rintro ⟨k, ⟨r, hr, hk⟩, k', ⟨x, hx, hk'⟩, differ⟩
    exact ⟨r, hr, x, hx, k, k', hk, hk', differ⟩
  · rintro ⟨r, hr, x, hx, k, k', hk, hk', differ⟩
    exact ⟨k, ⟨r, hr, hk⟩, k', ⟨x, hx, hk'⟩, differ⟩

/-! ### The reason class and forward present (R100) -/

theorem summarize_reason_eq (reads : List Read) : (summarize reads).reason =
    ((reads.findSome? Read.validReason).getD 0#8).setWidth 4 := rfl

theorem findSome_validReason_eq_none {reads : List Read}
    (h : ∀ x ∈ reads, x.valid = true → ∀ y, x.body ≠ .endorse y) :
    reads.findSome? Read.validReason = none :=
  List.findSome?_eq_none_iff.2 fun x hx => (validReason_eq_none_iff x).2 (h x hx)

theorem summarize_reason_of_first {before : List Read} (after : List Read) {r : Read} {c : Byte}
    (first : ∀ x ∈ before, x.valid = true → ∀ y, x.body ≠ .endorse y)
    (valid : r.valid = true) (endorse : r.body = .endorse c) :
    (summarize (before ++ r :: after)).reason = c.setWidth 4 := by
  have reason : r.validReason = some c := (validReason_eq_some_iff r c).2 ⟨valid, endorse⟩
  rw [summarize_reason_eq, List.findSome?_append, findSome_validReason_eq_none first,
    Option.none_or, List.findSome?_cons_of_isSome (by rw [reason]; rfl), reason, Option.getD_some]

theorem summarize_reason_of_none {reads : List Read}
    (h : ∀ x ∈ reads, x.valid = true → ∀ y, x.body ≠ .endorse y) :
    (summarize reads).reason = 0#4 := by
  rw [summarize_reason_eq, findSome_validReason_eq_none h]
  rfl

theorem summarize_forward_iff (reads : List Read) :
    (summarize reads).forward = true ↔ ∃ r ∈ reads, r.valid = true ∧ r.body = .forward := by
  simp only [summarize, List.any_eq_true, validForward_iff]

/-- Nothing valid: each field of the summary by its own rule. -/
theorem summarize_of_none_valid {reads : List Read} (h : ∀ r ∈ reads, r.valid = false) :
    summarize reads = ⟨none, false, 0#4, false⟩ := by
  have keys : reads.filterMap Read.validKey = [] := by
    simp only [List.filterMap_eq_nil_iff, Option.eq_none_iff_forall_ne_some]
    intro r hr k hk
    obtain ⟨valid, -⟩ := (validKey_eq_some_iff r k).1 hk
    simp [h r hr] at valid
  have key := summarize_key_of_keys_nil keys
  have clash : (summarize reads).clash = false := by rw [summarize_clash_eq, keys]; rfl
  have reason : (summarize reads).reason = 0#4 :=
    summarize_reason_of_none fun x hx valid => by simp [h x hx] at valid
  have forward : (summarize reads).forward = false :=
    Bool.eq_false_iff.2 fun set => by
      obtain ⟨r, hr, valid, -⟩ := (summarize_forward_iff reads).1 set
      simp [h r hr] at valid
  calc summarize reads
      = ⟨(summarize reads).key, (summarize reads).clash, (summarize reads).reason,
          (summarize reads).forward⟩ := rfl
    _ = ⟨none, false, 0#4, false⟩ := by rw [key, clash, reason, forward]

/-! ### The valid flag of ENDORSE and FORWARD reads (R77, R82) -/

theorem recordRead_valid_iff {st : StationIx} {minGrade : Nat} {ws : List Word} {r : Read}
    (hread : recordRead st minGrade ws = some r) :
    r.valid = true ↔ minGrade ≤ r.grade ∧ r.body.inRange = true := by
  obtain ⟨body, -, rfl⟩ := (recordRead_eq_some_iff st minGrade ws r).1 hread
  rw [Bool.and_eq_true, decide_eq_true_iff]

theorem endorse_inRange_iff (c : Byte) :
    (ReadBody.endorse c).inRange = true ↔ 1 ≤ c.toNat ∧ c.toNat ≤ 15 := by
  rw [ReadBody.inRange, Bool.and_eq_true, decide_eq_true_iff, decide_eq_true_iff]

theorem recordRead_endorse_forward_valid {st : StationIx} {minGrade : Nat} {ws : List Word}
    {r : Read} (hread : recordRead st minGrade ws = some r) :
    (∀ c, r.body = .endorse c →
      (r.valid = true ↔ minGrade ≤ r.grade ∧ 1 ≤ c.toNat ∧ c.toNat ≤ 15)) ∧
    (r.body = .forward → (r.valid = true ↔ minGrade ≤ r.grade)) := by
  rw [recordRead_valid_iff hread]
  refine ⟨fun c body => ?endorse, fun body => ?forward⟩
  case endorse => rw [body, endorse_inRange_iff]
  case forward => rw [body]; exact and_iff_left rfl

theorem recordFault_ne_none_of_malformed (s : State) {st : StationIx} {ws : List Word}
    (h : recordMalformed st ws = true) : s.recordFault st ws ≠ none := by
  cases crc : recordCrcGood ws <;> simp [State.recordFault, crc, h]

theorem recordMalformed_of_forward_absent (st : StationIx) {ws : List Word}
    (kind : recordKind ws = 2) (absent : bitAt (recordWord ws 1) 0 = false) :
    recordMalformed st ws = true :=
  (recordMalformed_iff st ws).2 (.inr (.inr (.inr (.inr ⟨kind, absent⟩))))

/-- Settles O26: the reason class, forward present and the empty summary field by field, the valid flags through the read's range, the flagless FORWARD record as a malformed one, and the key and conflict through the list of valid keys. -/
theorem readSummaryFormed : Obligations.ReadSummaryFormed :=
  ⟨validKey_eq_some_iff,
    ⟨fun _ after _ _ => summarize_reason_of_first after, fun _ => summarize_reason_of_none,
      summarize_forward_iff, fun _ => summarize_of_none_valid,
      fun _ _ _ _ => recordRead_endorse_forward_valid,
      fun s st _ kind absent =>
        recordFault_ne_none_of_malformed s (recordMalformed_of_forward_absent st kind absent)⟩,
    fun reads => ⟨summarize_key_iff reads, summarize_clash_iff reads⟩⟩

end Sys2Proof.Proofs
end

section
/-! PROOFS. SWEEP_EXCLUDE: the exclusion that the list takes, the refusal that ends the sequence, and the selection of SWEEP_GO under an exclusion of pocket 0 (R135, R136, R138). -/

namespace Sys2Proof.Proofs

open Sys2Proof Sys2Proof.Machine

/-! ### Commands of the sweep sequence -/

theorem whenIdle_of_ready {s : State} (ready : s.Ready) (c : Command) (own : State → State) :
    whenIdle c own s = own s := by
  obtain ⟨resetHigh, idle⟩ := ready
  simp [whenIdle, resetHigh, idle]

/-- The argument field of a pocket command, as its refusal carries it (R159). -/
theorem pocketArgument_setWidth (p : PocketIx) :
    (BitVec.ofNat 24 p.val).setWidth 32 = BitVec.ofNat 32 p.val :=
  BitVec.setWidth_ofNat_of_le_of_lt (by decide) (p.isLt.trans (by decide))

/-- A command that sets the sequence and acknowledges does nothing else: the whole effect of SWEEP_FIRST, SWEEP_LAST and SWEEP_EXCLUDE. -/
theorem acknowledge_after_sweep (s : State) (sequence : Sweep) (r : CmdResult) :
    (acknowledge r { s with sweep := sequence }).sweep = sequence ∧
    (acknowledge r { s with sweep := sequence }).cmd =
      { s.cmd with last := r, ackCount := s.cmd.ackCount + 1 } ∧
    s.Raised (acknowledge r { s with sweep := sequence })
      [ackNotice (acknowledge r { s with sweep := sequence }).cmd.last] ∧
    { acknowledge r { s with sweep := sequence } with
      sweep := s.sweep, cmd := s.cmd, notice := s.notice, noticeReq := s.noticeReq } = s := by
  refine ⟨by simp, by simp, ?raised, ?frame⟩
  case raised =>
    rw [acknowledge_cmd]
    exact (acknowledge_raised r _).congr_left rfl rfl rfl rfl
  case frame => apply State.eq_of_fields <;> simp

/-! ### SWEEP_EXCLUDE (R138) -/

/-- The four conditions of R138 on a sequence. -/
def SweepAdmits (r : PocketIx) (sequence : Sweep) : Prop :=
  ∃ first last ex, sequence = .rangeSet first last ex ∧ first ≤ r ∧ r ≤ last ∧ r ∉ ex ∧
    ex.length < 8

theorem exec_sweepExclude_taken {s : State} {r first last : PocketIx} {ex : List PocketIx}
    (ready : s.Ready) (range : s.sweep = .rangeSet first last ex)
    (admitted : first ≤ r ∧ r ≤ last ∧ r ∉ ex ∧ ex.length < 8) :
    exec (.sweepExclude r) s = .next
      (acknowledge ⟨0x22#8, .ok, false, none, BitVec.ofNat 32 (ex.length + 1)⟩
        { s with sweep := .rangeSet first last (ex ++ [r]) }) := by
  have taken : commandSweepExclude r s = ackSweep (.sweepExclude r)
      (BitVec.ofNat 32 (ex.length + 1)) { s with sweep := .rangeSet first last (ex ++ [r]) } := by
    rw [commandSweepExclude, whenIdle_of_ready ready]
    simp only [range]
    exact if_pos admitted
  exact congrArg Host.Outcome.next taken

theorem exec_sweepExclude_refused {s : State} {r : PocketIx} (ready : s.Ready)
    (notAdmitted : ¬ SweepAdmits r s.sweep) :
    exec (.sweepExclude r) s = .next
      (acknowledge ⟨0x22#8, .seqError, false, none, BitVec.ofNat 32 r.val⟩
        { s with sweep := .idle }) := by
  have refused : commandSweepExclude r s = refuseSweep (.sweepExclude r) .seqError s := by
    rw [commandSweepExclude, whenIdle_of_ready ready]
    cases sequence : s.sweep with
    | idle => rfl
    | firstSet first => rfl
    | rangeSet first last ex =>
      exact if_neg fun admitted => notAdmitted ⟨first, last, ex, sequence, admitted⟩
  rw [← pocketArgument_setWidth]
  exact congrArg Host.Outcome.next refused

/-- Pocket 0 is passed over in every sweep, so its place in the exclusion list selects nothing (R136). -/
theorem sweepSelection_exclude_zero (first last : PocketIx) (ex : List PocketIx) :
    sweepSelection first last (ex ++ [0]) = sweepSelection first last ex := by
  refine List.filter_congr fun p _ => ?_
  by_cases zero : p = 0
  · simp [zero]
  · simp [zero]

/-- Settles O33: a command that meets R138's conditions and one that does not, each as one acknowledgment on a new sequence, and the selection by pocket 0's own exception. -/
theorem sweepExcludeExtendsList : Obligations.SweepExcludeExtendsList := by
  refine ⟨fun s r ready => ⟨fun first last ex range above below fresh room => ?taken,
    fun notAdmitted => ?refused⟩, sweepSelection_exclude_zero⟩
  case taken =>
    exact ⟨_, exec_sweepExclude_taken ready range ⟨above, below, fresh, room⟩,
      acknowledge_after_sweep s _ _⟩
  case refused =>
    exact ⟨_, exec_sweepExclude_refused ready notAdmitted, acknowledge_after_sweep s _ _⟩

end Sys2Proof.Proofs
end

section
/-! PROOFS. The invariants in parts, and the operations that touch none of them but for the notice unit and the ports: a quiet operation keeps every part. -/

namespace Sys2Proof.Proofs

open Sys2Proof Sys2Proof.Machine Sys2Proof.Laws

/-! ### The parts of the invariant -/

/-- What is right of the notice unit (R161, R163, R164, R167). -/
structure NoticeRight (s : State) : Prop where
  fifo : s.notice.fifo.length ≤ Config.maxFifo
  wait : s.noticeReq.wait ≤ Config.waitLimit
  ring : s.notice.writing ≠ none →
    (s.notice.producer + 1) % s.plan.ringSize ≠ s.notice.consumer
  attn : s.notice.mode = .level → s.notice.attn = s.levelAttn

/-- What is right of the other requesters and the memory port (R20, R145). -/
structure PortRight (s : State) : Prop where
  chainWait : s.chainReq.wait ≤ Config.waitLimit
  planWait  : s.planReq.wait ≤ Config.waitLimit
  chain     : s.atMemory .chain = true → s.chainReq.req = none

/-- What is right of the counts and the occupancy latch (R57, R60). -/
structure CountRight (s : State) : Prop where
  transit  : s.transitCount ≤ Config.maxTransit
  sum      : s.occupancySum ≤ Config.maxSum
  latchSet : Config.occupancySet ≤ s.occupancySum → s.transport.occupancy = true
  latchOff : s.occupancySum ≤ Config.occupancyClear → s.transport.occupancy = false

/-- What is right of the letters by themselves (R63, R84). -/
structure LettersRight (ls : List Letter) : Prop where
  reads : ∀ l ∈ ls, l.reads.length ≤ Config.maxReads
  slots : (ls.map fun l => slotOf l.tag).Nodup

/-- FEED_HOLD stands as its conditions demand (R56). -/
def FeedRight (s : State) : Prop := s.transport.feedHold = s.holdLevel

/-- The stall monitor runs where its conditions hold (R51). -/
def StallRight (s : State) : Prop := s.transport.stall.isSome = s.stallWatched

theorem inv_iff_parts (s : State) : s.Inv ↔
    NoticeRight s ∧ PortRight s ∧ CountRight s ∧ LettersRight s.transit.letters ∧ FeedRight s ∧
      StallRight s ∧ s.LoadRight ∧ s.PocketsRight := by
  have slots : s.SlotsDistinct ↔ (s.transit.letters.map fun l => slotOf l.tag).Nodup := by
    simp only [State.SlotsDistinct, State.tags, List.map_map, Function.comp_def]
  constructor
  · rintro ⟨b, d, o, l, p⟩
    obtain ⟨noticeWait, chainWait, planWait⟩ := b.waits
    exact ⟨⟨b.fifo, noticeWait, b.ring, o.attn⟩, ⟨chainWait, planWait, b.chain⟩,
      ⟨b.transit, b.sum, o.latchSet, o.latchOff⟩, ⟨b.reads, slots.1 d⟩, o.feedHold, o.stall, l, p⟩
  · rintro ⟨n, q, c, m, f, w, l, p⟩
    exact ⟨⟨c.transit, c.sum, m.reads, n.fifo, ⟨n.wait, q.chainWait, q.planWait⟩, q.chain, n.ring⟩,
      slots.2 m.slots, ⟨f, c.latchSet, c.latchOff, w, n.attn⟩, l, p⟩

/-! ### What each part depends on -/

theorem NoticeRight.congr {s t : State} (h : NoticeRight s) (notice : t.notice = s.notice)
    (req : t.noticeReq = s.noticeReq) (layout : t.plan.layout = s.plan.layout) :
    NoticeRight t := by
  obtain ⟨fifo, wait, ring, attn⟩ := h
  refine ⟨by rwa [notice], by rwa [req], ?_, ?_⟩
  · rwa [notice, show t.plan.ringSize = s.plan.ringSize by simp [Plan.ringSize, layout]]
  · rwa [notice, show t.levelAttn = s.levelAttn by simp [State.levelAttn, layout, notice]]

theorem PortRight.congr {s t : State} (h : PortRight s) (chainReq : t.chainReq = s.chainReq)
    (planReq : t.planReq = s.planReq) (port : t.port = s.port) : PortRight t := by
  obtain ⟨chainWait, planWait, chain⟩ := h
  refine ⟨by rwa [chainReq], by rwa [planReq], ?_⟩
  rwa [chainReq, show t.atMemory .chain = s.atMemory .chain by simp [State.atMemory, port]]

theorem CountRight.congr {s t : State} (h : CountRight s)
    (transit : t.transitCount ≤ s.transitCount) (sum : t.occupancySum = s.occupancySum)
    (occupancy : t.transport.occupancy = s.transport.occupancy) : CountRight t := by
  obtain ⟨htransit, hsum, latchSet, latchOff⟩ := h
  refine ⟨transit.trans htransit, by rwa [sum], ?_, ?_⟩ <;> rwa [sum, occupancy]

theorem FeedRight.congr {s t : State} (h : FeedRight s)
    (feedHold : t.transport.feedHold = s.transport.feedHold)
    (line : t.transport.line = s.transport.line)
    (occupancy : t.transport.occupancy = s.transport.occupancy)
    (layout : t.plan.layout = s.plan.layout) (capacity : (t.pocket 0).capacity = (s.pocket 0).capacity)
    (fill : (t.pocket 0).fill = (s.pocket 0).fill) : FeedRight t := by
  have reject : t.holdReject = s.holdReject := by
    rw [holdReject_eq, holdReject_eq, layout, capacity, fill]
  unfold FeedRight State.holdLevel State.holdLine at h ⊢
  rw [feedHold, line, occupancy, reject, h]

theorem StallRight.congr {s t : State} (h : StallRight s)
    (stall : t.transport.stall.isSome = s.transport.stall.isSome)
    (line : t.transport.line = s.transport.line)
    (letters : t.transit.letters = [] ↔ s.transit.letters = []) : StallRight t := by
  have isEmpty : t.transit.letters.isEmpty = s.transit.letters.isEmpty := by
    rw [Bool.eq_iff_iff, List.isEmpty_iff, List.isEmpty_iff, letters]
  unfold StallRight State.stallWatched at h ⊢
  rw [stall, line, isEmpty, h]

theorem loadRight_congr {s t : State} (h : s.LoadRight) (plan : t.plan = s.plan)
    (executing : t.cmd.executing = s.cmd.executing)
    (awaiting : (∀ l ∈ s.transit.letters, l.state ≠ .awaitPlan) →
      ∀ l ∈ t.transit.letters, l.state ≠ .awaitPlan)
    (locked : s.transport.line = .stopped ∧ s.transit.letters = [] →
      t.transport.line = .stopped ∧ t.transit.letters = []) : t.LoadRight := by
  refine ⟨by rw [plan]; exact h.loading, by rw [plan, executing]; exact h.executing, ?_, ?_⟩
  · rw [plan]
    exact fun none => awaiting (h.awaiting none)
  · rw [plan]
    exact fun ld some changed => locked (h.locked ld some changed)

theorem pocketsRight_congr {s t : State} (h : s.PocketsRight)
    (letters : t.transit.letters = s.transit.letters)
    (state : ∀ p, (t.pocket p).state = (s.pocket p).state)
    (inFlight : ∀ p, (t.pocket p).inFlight = (s.pocket p).inFlight) : t.PocketsRight := by
  refine ⟨fun p => ?_, fun p zero => ?_, fun p target => ?_⟩
  · rw [inFlight, h.inFlight, State.reserved, State.reserved, letters]
  · rw [inFlight, state]
    exact h.atRest p zero
  · rw [inFlight, state]
    exact h.draining p target

/-! ### Quiet operations -/

/-- Between `s` and `t` nothing has happened that the invariants watch, but in the notice unit and at the ports, where what was right is right. -/
structure Quiet (s t : State) : Prop where
  notice    : NoticeRight s → NoticeRight t
  port      : PortRight s → PortRight t
  plan      : t.plan = s.plan
  executing : t.cmd.executing = s.cmd.executing
  line      : t.transport.line = s.transport.line
  stall     : t.transport.stall.isSome = s.transport.stall.isSome
  feedHold  : t.transport.feedHold = s.transport.feedHold
  occupancy : t.transport.occupancy = s.transport.occupancy
  letters   : t.transit.letters = s.transit.letters
  records   : t.records = s.records
  pockets   : t.pockets = s.pockets
  pending   : t.pending = s.pending

theorem Quiet.refl (s : State) : Quiet s s :=
  ⟨id, id, rfl, rfl, rfl, rfl, rfl, rfl, rfl, rfl, rfl, rfl⟩

theorem Quiet.trans {s t u : State} (h : Quiet s t) (k : Quiet t u) : Quiet s u where
  notice := k.notice ∘ h.notice
  port := k.port ∘ h.port
  plan := k.plan.trans h.plan
  executing := k.executing.trans h.executing
  line := k.line.trans h.line
  stall := k.stall.trans h.stall
  feedHold := k.feedHold.trans h.feedHold
  occupancy := k.occupancy.trans h.occupancy
  letters := k.letters.trans h.letters
  records := k.records.trans h.records
  pockets := k.pockets.trans h.pockets
  pending := k.pending.trans h.pending

theorem Quiet.retireCount {s t : State} (h : Quiet s t) : t.retireCount = s.retireCount := by
  simpa [State.records, State.retireCount] using congrArg List.length h.records

theorem Quiet.count {s t : State} (h : Quiet s t) (right : CountRight s) : CountRight t := by
  have transit : t.transitCount = s.transitCount := congrArg List.length h.letters
  refine right.congr transit.le ?_ h.occupancy
  rw [State.occupancySum, State.occupancySum, transit, h.retireCount]

theorem Quiet.feed {s t : State} (h : Quiet s t) (right : FeedRight s) : FeedRight t :=
  right.congr h.feedHold h.line h.occupancy (by rw [h.plan]) (by rw [pocket_congr h.pockets])
    (by rw [pocket_congr h.pockets])

theorem Quiet.stallRight {s t : State} (h : Quiet s t) (right : StallRight s) : StallRight t :=
  right.congr h.stall h.line (by rw [h.letters])

theorem Quiet.load {s t : State} (h : Quiet s t) (right : s.LoadRight) : t.LoadRight :=
  loadRight_congr right h.plan h.executing (by rw [h.letters]; exact id)
    (by rw [h.letters, h.line]; exact id)

theorem Quiet.pocketsRight {s t : State} (h : Quiet s t) (right : s.PocketsRight) :
    t.PocketsRight :=
  pocketsRight_congr right h.letters (fun p => by rw [pocket_congr h.pockets])
    (fun p => by rw [pocket_congr h.pockets])

/-- A quiet operation keeps the whole invariant. -/
theorem Quiet.inv {s t : State} (h : Quiet s t) (right : s.Inv) : t.Inv := by
  rw [inv_iff_parts] at right ⊢
  obtain ⟨n, q, c, m, f, w, l, p⟩ := right
  exact ⟨h.notice n, h.port q, h.count c, h.letters ▸ m, h.feed f, h.stallRight w, h.load l,
    h.pocketsRight p⟩

/-- An operation that leaves the ports and the notice unit too is quiet: the form for updates of registers that no invariant reads. -/
theorem Quiet.of_same {s t : State} (notice : t.notice = s.notice := by simp)
    (noticeReq : t.noticeReq = s.noticeReq := by simp)
    (chainReq : t.chainReq = s.chainReq := by simp) (planReq : t.planReq = s.planReq := by simp)
    (port : t.port = s.port := by simp) (plan : t.plan = s.plan := by simp)
    (executing : t.cmd.executing = s.cmd.executing := by simp)
    (line : t.transport.line = s.transport.line := by simp)
    (stall : t.transport.stall.isSome = s.transport.stall.isSome := by simp)
    (feedHold : t.transport.feedHold = s.transport.feedHold := by simp)
    (occupancy : t.transport.occupancy = s.transport.occupancy := by simp)
    (letters : t.transit.letters = s.transit.letters := by simp)
    (records : t.records = s.records := by simp [State.records])
    (pockets : t.pockets = s.pockets := by simp)
    (pending : t.pending = s.pending := by simp) : Quiet s t :=
  ⟨fun h => h.congr notice noticeReq (by rw [plan]), fun h => h.congr chainReq planReq port, plan,
    executing, line, stall, feedHold, occupancy, letters, records, pockets, pending⟩

/-- An operation of the notice unit alone is quiet where it leaves the unit right. -/
theorem Quiet.of_notice {s t : State} (right : NoticeRight s → NoticeRight t)
    (chainReq : t.chainReq = s.chainReq := by simp) (planReq : t.planReq = s.planReq := by simp)
    (port : t.port = s.port := by simp) (plan : t.plan = s.plan := by simp)
    (cmd : t.cmd = s.cmd := by simp) (transport : t.transport = s.transport := by simp)
    (transit : t.transit = s.transit := by simp) (retire : t.retire = s.retire := by simp)
    (pockets : t.pockets = s.pockets := by simp)
    (pending : t.pending = s.pending := by simp) : Quiet s t :=
  ⟨right, fun h => h.congr chainReq planReq port, plan, by rw [cmd], by rw [transport],
    by rw [transport], by rw [transport], by rw [transport], by rw [transit],
    State.records_congr retire, pockets, pending⟩

/-- An operation at the ports alone is quiet where it leaves them right. -/
theorem Quiet.of_port {s t : State} (right : PortRight s → PortRight t)
    (notice : t.notice = s.notice := by simp) (noticeReq : t.noticeReq = s.noticeReq := by simp)
    (plan : t.plan = s.plan := by simp) (cmd : t.cmd = s.cmd := by simp)
    (transport : t.transport = s.transport := by simp) (transit : t.transit = s.transit := by simp)
    (retire : t.retire = s.retire := by simp) (pockets : t.pockets = s.pockets := by simp)
    (pending : t.pending = s.pending := by simp) : Quiet s t :=
  ⟨fun h => h.congr notice noticeReq (by rw [plan]), right, plan, by rw [cmd], by rw [transport],
    by rw [transport], by rw [transport], by rw [transport], by rw [transit],
    State.records_congr retire, pockets, pending⟩

/-! ### Notices and acknowledgments -/

/-- Notices raised leave the unit right: the FIFO is cut at 32, and a write begins only where the ring has room. -/
theorem noticeRight_of_raised {s t : State} {ns : List Notice} (h : s.Raised t ns)
    (right : NoticeRight s) : NoticeRight t := by
  obtain ⟨fifo, wait, ring, attn⟩ := right
  obtain ⟨-, -, -, -, ringFault, producer, consumer, mode, -, attnKept⟩ := h.kept.fields
  have size : t.plan.ringSize = s.plan.ringSize := by simp [Plan.ringSize, h.layout]
  have length : t.notice.fifo.length ≤ Config.maxFifo := by
    rw [h.fifo, State.queued, List.length_append, List.length_take]
    omega
  have level : t.notice.mode = .level → t.notice.attn = t.levelAttn := by
    rw [mode, attnKept, show t.levelAttn = s.levelAttn by
      simp [State.levelAttn, h.layout, producer, consumer]]
    exact attn
  by_cases stands : (∀ l, s.plan.layout = some l → s.notice.ringFault = true ∨
      (s.notice.producer + 1) % l.noticeSize = s.notice.consumer) ∨
      s.notice.writing ≠ none ∨ t.notice.fifo = s.notice.fifo
  · obtain ⟨writing, req⟩ := h.stood stands
    refine ⟨length, by rwa [req], ?_, level⟩
    rwa [writing, size, producer, consumer]
  · push Not at stands
    obtain ⟨⟨l, layout, sound, room⟩, idle, grown⟩ := stands
    cases head : t.notice.fifo with
    | nil =>
      have joined : s.queued ns = [] := h.fifo.symm.trans head
      exact absurd (head.trans (List.append_eq_nil_iff.1 joined).1.symm) grown
    | cons n rest =>
      obtain ⟨-, req⟩ :=
        h.began l n rest layout (Bool.eq_false_iff.2 sound) room idle grown head
      refine ⟨length, by simp [req], fun _ => ?_, level⟩
      rwa [size, producer, consumer, Plan.ringSize, layout]

theorem raise_quiet (n : Notice) (s : State) : Quiet s (raise n s) :=
  .of_notice (noticeRight_of_raised (raise_raised n s))

theorem acknowledge_quiet (r : CmdResult) (s : State) : Quiet s (acknowledge r s) :=
  Quiet.trans .of_same (raise_quiet _ _)

theorem ackTaken_quiet (c : Command) (arg : Word) (s : State) : Quiet s (ackTaken c arg s) :=
  Quiet.trans .of_same (acknowledge_quiet _ _)

theorem ackSweep_quiet (c : Command) (arg : Word) (s : State) : Quiet s (ackSweep c arg s) :=
  acknowledge_quiet _ _

theorem refuse_quiet (c : Command) (r : ResultCode) (s : State) : Quiet s (refuse c r s) :=
  acknowledge_quiet _ _

theorem refuseSweep_quiet (c : Command) (r : ResultCode) (s : State) :
    Quiet s (refuseSweep c r s) :=
  Quiet.trans .of_same (refuse_quiet _ _ _)

theorem refuseWord_quiet (w : Word) (s : State) : Quiet s (refuseWord w s) := acknowledge_quiet _ _

end Sys2Proof.Proofs
end

section
/-! PROOFS. The quiet operations of the chain engine, the notice unit, the pocket table and the station unit. -/

namespace Sys2Proof.Proofs

open Sys2Proof Sys2Proof.Machine Sys2Proof.Laws

/-! ### The chain engine (R145) -/

theorem presentChain_quiet (j : Job) (a : MemAccess) (s : State) : Quiet s (s.presentChain j a) := by
  refine .of_port fun ⟨chainWait, planWait, chain⟩ => ?_
  have port : (s.presentChain j a).atMemory .chain = s.atMemory .chain := rfl
  cases busy : s.atMemory .chain with
  | true => exact ⟨by simpa [busy] using chainWait, planWait, by simpa [port, busy] using chain⟩
  | false => exact ⟨by simp [busy, OwnReq.present], planWait, by simp [port, busy]⟩

theorem withdrawChain_quiet (s : State) : Quiet s s.withdrawChain :=
  .of_port fun ⟨_, planWait, _⟩ => ⟨Nat.zero_le _, planWait, fun _ => rfl⟩

theorem freePort_quiet (s : State) : Quiet s (freePort s) :=
  .of_port fun ⟨chainWait, planWait, _⟩ => ⟨chainWait, planWait, by simp [State.atMemory]⟩

theorem presentWork_quiet (s : State) : Quiet s (presentWork s) := by
  unfold presentWork writeCompletion
  cases s.chain.work with
  | none => exact .refl s
  | record k => cases s.retire with
    | nil => exact .refl s
    | cons r rest => exact presentChain_quiet _ _ s
  | descriptor | refusal | rereadControl | rereadNext | completion =>
    exact presentChain_quiet _ _ s

/-- A change of the chain registers alone is quiet. -/
theorem setChain_quiet (c : Chain) (s : State) : Quiet s { s with chain := c } := .of_same

theorem beginWork_quiet (w : ChainWork) (s : State) : Quiet s (beginWork w s) :=
  (setChain_quiet _ s).trans (presentWork_quiet _)

theorem setMemoryFlag_quiet (s : State) : Quiet s (setMemoryFlag s) :=
  .of_notice fun ⟨fifo, wait, ring, attn⟩ => ⟨fifo, wait, ring, attn⟩

theorem setGuardFlag_quiet (s : State) : Quiet s (setGuardFlag s) :=
  .of_notice fun ⟨fifo, wait, ring, attn⟩ => ⟨fifo, wait, ring, attn⟩

theorem setChainState_quiet (st : ChainState) (cause : ChainCause) (s : State) :
    Quiet s (setChainState st cause s) :=
  (setChain_quiet _ s).trans (raise_quiet _ _)

theorem chainFault_quiet (f : ChainFault) (s : State) : Quiet s (chainFault f s) :=
  (setChain_quiet _ s).trans (setChainState_quiet _ _ _)

theorem chainMemoryFault_quiet (s : State) : Quiet s (chainMemoryFault s) :=
  (setMemoryFlag_quiet s).trans (chainFault_quiet _ _)

theorem fetchBegin_quiet (addr : Word) (s : State) : Quiet s (fetchBegin addr s) := by
  unfold fetchBegin
  simp only
  split
  · exact (setChain_quiet _ s).trans (beginWork_quiet _ _)
  · exact (setChain_quiet _ s).trans (chainFault_quiet _ _)

theorem chainPump_quiet (s : State) : Quiet s (chainPump s) := by
  unfold chainPump
  split
  · exact beginWork_quiet _ s
  · exact .refl s

theorem endDescriptor_quiet (e : EndCause) (s : State) : Quiet s (endDescriptor e s) :=
  (setChain_quiet _ s).trans (beginWork_quiet _ _)

theorem batchToChain_quiet (s : State) : Quiet s (batchToChain s) := by
  have records := batchToChain_records s
  unfold batchToChain at records ⊢
  cases retire : s.retire with
  | cons r rest => exact .of_same (records := by simpa [retire] using records)
  | nil =>
    simp only
    split
    · exact endDescriptor_quiet _ s
    · exact .refl s

theorem afterAbandoned_quiet (s : State) : Quiet s (afterAbandoned s) := by
  unfold afterAbandoned
  cases s.chainReq.req with
  | none => exact presentWork_quiet s
  | some a => exact .refl s

theorem descriptorFetched_quiet (s : State) : Quiet s (descriptorFetched s) := by
  unfold descriptorFetched
  split
  · exact beginWork_quiet _ s
  · split
    · exact beginWork_quiet _ s
    · exact (setChain_quiet _ s).trans (chainPump_quiet _)

theorem descriptorWord_quiet (data : Word) (s : State) : Quiet s (descriptorWord data s) := by
  unfold descriptorWord
  split
  · exact (setChain_quiet _ s).trans (beginWork_quiet _ _)
  · exact (setChain_quiet _ s).trans (beginWork_quiet _ _)
  · exact (setChain_quiet _ s).trans (descriptorFetched_quiet _)
  all_goals exact .refl s

theorem rereadNextWord_quiet (hold : Bool) (s : State) : Quiet s (rereadNextWord hold s) :=
  (setChain_quiet _ s).trans (beginWork_quiet _ _)

theorem rereadWord_quiet (data : Word) (s : State) : Quiet s (rereadWord data s) := by
  unfold rereadWord
  split
  · exact rereadNextWord_quiet _ s
  · exact setChainState_quiet _ _ s
  · exact fetchBegin_quiet _ s
  all_goals exact .refl s

theorem testDescriptorEnd_quiet (boundary : Bool) (s : State) :
    Quiet s (testDescriptorEnd boundary s) := by
  unfold testDescriptorEnd
  split
  · exact endDescriptor_quiet _ s
  · split
    · exact endDescriptor_quiet _ s
    · split
      · exact endDescriptor_quiet _ s
      · exact chainPump_quiet s

theorem notifyDone_quiet (e : EndCause) (s : State) : Quiet s (notifyDone e s) := by
  unfold notifyDone
  split
  · exact raise_quiet _ s
  · exact .refl s

theorem leaveDescriptor_quiet (e : EndCause) (s : State) : Quiet s (leaveDescriptor e s) := by
  unfold leaveDescriptor
  split
  · exact (setChain_quiet _ s).trans (setChainState_quiet _ _ _)
  · split <;> split
    · exact setChainState_quiet _ _ s
    · exact fetchBegin_quiet _ s
    · exact setChainState_quiet _ _ s
    · exact fetchBegin_quiet _ s

theorem completionAccepted_quiet (s : State) : Quiet s (completionAccepted s) := by
  unfold completionAccepted
  split
  · exact (notifyDone_quiet _ s).trans (leaveDescriptor_quiet _ _)
  · exact chainFault_quiet _ s
  all_goals exact .refl s

/-- An answer to the chain engine: nothing, a discarded answer, or what the engine does with it. -/
theorem chainAnswer_cases (job : Job) (act : State → State) (s : State) :
    chainAnswer job act s = s ∨ chainAnswer job act s = afterAbandoned (freePort s) ∨
      chainAnswer job act s = act (freePort s) := by
  unfold chainAnswer
  split
  · split
    · split
      · exact .inr (.inl rfl)
      · exact .inr (.inr rfl)
    · exact .inl rfl
  · exact .inl rfl

theorem chainAnswer_quiet {act : State → State} (h : ∀ s, Quiet s (act s)) (job : Job) (s : State) :
    Quiet s (chainAnswer job act s) := by
  rcases chainAnswer_cases job act s with e | e | e <;> rw [e]
  · exact .refl s
  · exact (freePort_quiet s).trans (afterAbandoned_quiet _)
  · exact (freePort_quiet s).trans (h _)

theorem chainDescReadDone_quiet (answer : MemAnswer) (s : State) :
    Quiet s (chainDescReadDone answer s) := by
  refine chainAnswer_quiet (fun s => ?_) .chainDesc s
  cases answer with
  | ok data => exact descriptorWord_quiet data s
  | error => exact chainMemoryFault_quiet s

theorem chainRereadDone_quiet (answer : MemAnswer) (s : State) :
    Quiet s (chainRereadDone answer s) := by
  refine chainAnswer_quiet (fun s => ?_) .chainReread s
  cases answer with
  | ok data => exact rereadWord_quiet data s
  | error => exact chainMemoryFault_quiet s

theorem chainCompletionDone_quiet (answer : WriteAnswer) (s : State) :
    Quiet s (chainCompletionDone answer s) := by
  refine chainAnswer_quiet (fun s => ?_) .chainCompletion s
  cases answer with
  | ok => exact completionAccepted_quiet s
  | error => exact chainMemoryFault_quiet s

theorem chainBasePointer_quiet (data : Word) (enables : Enables) (s : State) :
    Quiet s (chainBasePointer data enables s) := by
  unfold chainBasePointer
  split
  · exact setChain_quiet _ s
  · exact .refl s

theorem chainLastPointer_quiet (data : Word) (enables : Enables) (s : State) :
    Quiet s (chainLastPointer data enables s) := by
  unfold chainLastPointer lastPointerWritten
  simp only
  split
  · split
    · exact (setChain_quiet _ s).trans (rereadNextWord_quiet _ _)
    · exact setChain_quiet _ s
  · exact .refl s

/-- A command that is taken only in IDLE is quiet where its own effect is. -/
theorem whenIdle_quiet {own : State → State} (h : ∀ s, Quiet s (own s)) (c : Command) (s : State) :
    Quiet s (whenIdle c own s) := by
  unfold whenIdle
  split
  · exact .refl s
  · split
    · exact refuse_quiet _ _ s
    · exact h s

theorem commandChainStart_quiet (s : State) : Quiet s (commandChainStart s) := by
  refine whenIdle_quiet (fun s => ?_) .chainStart s
  split
  case h_1 | h_2 =>
    exact ((setChain_quiet _ s).trans (fetchBegin_quiet _ _)).trans (ackTaken_quiet _ _ _)
  all_goals exact refuse_quiet _ _ s

theorem commandChainResume_quiet (s : State) : Quiet s (commandChainResume s) := by
  refine whenIdle_quiet (fun s => ?_) .chainResume s
  split
  · exact ((setChain_quiet _ s).trans (beginWork_quiet _ _)).trans (ackTaken_quiet _ _ _)
  · exact refuse_quiet _ _ s

theorem stopFilling_quiet (s : State) : Quiet s (stopFilling s) :=
  (withdrawChain_quiet s).trans (endDescriptor_quiet _ _)

theorem chainStopFilling_quiet (s : State) : Quiet s (chainStopFilling s) := by
  unfold chainStopFilling
  split
  · exact (setChain_quiet _ s).trans (ackTaken_quiet _ _ _)
  all_goals exact (stopFilling_quiet s).trans (ackTaken_quiet _ _ _)

theorem chainTurnOff_quiet (s : State) : Quiet s (chainTurnOff s) :=
  ((withdrawChain_quiet s).trans (setChain_quiet _ _)).trans (setChainState_quiet _ _ _)

theorem commandChainStop_quiet (s : State) : Quiet s (commandChainStop s) := by
  refine whenIdle_quiet (fun s => ?_) .chainStop s
  cases s.chain.state with
  | filling => exact chainStopFilling_quiet s
  | off => exact ackTaken_quiet _ _ s
  | fetch | held | fault => exact (chainTurnOff_quiet s).trans (ackTaken_quiet _ _ _)

theorem flushFilling_quiet (s : State) : Quiet s (flushFilling s) := by
  unfold flushFilling
  split
  · exact .refl s
  · split
    · exact .refl s
    · exact setChain_quiet _ s
    all_goals exact endDescriptor_quiet _ s

theorem commandChainFlush_quiet (s : State) : Quiet s (commandChainFlush s) := by
  refine whenIdle_quiet (fun s => ?_) .chainFlush s
  cases s.chain.state with
  | filling => exact (flushFilling_quiet s).trans (ackTaken_quiet _ _ _)
  | fetch | held => exact ackTaken_quiet _ _ s
  | off | fault => exact refuse_quiet _ _ s

/-! ### The notice unit (R163 to R170) -/

/-- A notice word is presented only where it is due, or where one is in progress already: in both the ring has room. -/
theorem presentNoticeWord_right {s : State} (k : Fin 4) (h : NoticeRight s)
    (room : (s.notice.producer + 1) % s.plan.ringSize ≠ s.notice.consumer) :
    NoticeRight (presentNoticeWord k s) := by
  obtain ⟨fifo, wait, ring, attn⟩ := h
  unfold presentNoticeWord
  split
  · exact ⟨fifo, Nat.zero_le _, fun _ => room, attn⟩
  all_goals exact ⟨fifo, wait, ring, attn⟩

theorem noticePump_right {s : State} (h : NoticeRight s) : NoticeRight (noticePump s) := by
  unfold noticePump
  split
  case isTrue due =>
    refine presentNoticeWord_right 0 h ?_
    simp only [State.noticeDue, State.ringRoom, Bool.and_eq_true, bne_iff_ne] at due
    obtain ⟨⟨⟨-, room⟩, -⟩, -⟩ := due
    exact room
  case isFalse => exact h

/-- ATTN at an acceptance stands right whatever it was. -/
theorem attnAtEntry_right {s : State} (fifo : s.notice.fifo.length ≤ Config.maxFifo)
    (wait : s.noticeReq.wait ≤ Config.waitLimit) (ring : s.notice.writing ≠ none →
      (s.notice.producer + 1) % s.plan.ringSize ≠ s.notice.consumer) :
    NoticeRight (attnAtEntry s) := by
  unfold attnAtEntry
  cases mode : s.notice.mode with
  | level => exact ⟨fifo, wait, ring, fun _ => rfl⟩
  | first =>
    simp only
    split <;> exact ⟨fifo, wait, ring, fun level => by simp [mode] at level⟩

theorem entryAccepted_right {s : State} (h : NoticeRight s) : NoticeRight (entryAccepted s) := by
  refine noticePump_right (attnAtEntry_right ?_ h.wait (fun writing => absurd rfl writing))
  simpa using (Nat.sub_le _ _).trans h.fifo

theorem noticeWordAccepted_quiet (s : State) : Quiet s (noticeWordAccepted s) := by
  refine .of_notice fun h => ?_
  unfold noticeWordAccepted
  cases writing : s.notice.writing with
  | none => exact h
  | some k =>
    simp only
    split
    · exact entryAccepted_right h
    · exact presentNoticeWord_right _ h (h.ring (by simp [writing]))

theorem faultRing_quiet (addr : Word) (s : State) : Quiet s (faultRing addr s) := by
  refine Quiet.trans (.of_notice fun h => ?_) (raise_quiet _ _)
  exact ⟨h.fifo, h.wait, fun writing => absurd rfl writing, h.attn⟩

theorem noticeWordWriteDone_quiet (answer : WriteAnswer) (s : State) :
    Quiet s (noticeWordWriteDone answer s) := by
  unfold noticeWordWriteDone
  split
  · split
    · split
      · exact freePort_quiet s
      · cases answer with
        | ok => exact (freePort_quiet s).trans (noticeWordAccepted_quiet _)
        | error => exact (freePort_quiet s).trans (faultRing_quiet _ _)
    · exact .refl s
  · exact .refl s

theorem atMemory_abandonedBy (s : State) (r q : Requester) (port : Option Granted)
    (h : s.port = port.map (Granted.abandonedBy r)) :
    s.atMemory q = State.atMemory { s with port := port } q := by
  unfold State.atMemory
  cases port with
  | none => simp [h]
  | some g =>
    have job : (Granted.abandonedBy r g).job = g.job := by
      unfold Granted.abandonedBy
      split <;> rfl
    simp [h, job]

theorem withdrawNotice_port {s : State} (h : PortRight s) : PortRight s.withdrawNotice :=
  ⟨h.chainWait, h.planWait, by
    rw [atMemory_abandonedBy s.withdrawNotice .notice .chain s.port rfl]
    exact h.chain⟩

theorem withdrawPlan_quiet (s : State) : Quiet s s.withdrawPlan :=
  .of_port fun h => ⟨h.chainWait, Nat.zero_le _, by
    rw [atMemory_abandonedBy s.withdrawPlan .plan .chain s.port rfl]
    exact h.chain⟩

/-- ATTN at a consumer write stands right whatever it was, once a full ring has stopped the writing. -/
theorem stopIfFull_right {s : State} (fifo : s.notice.fifo.length ≤ Config.maxFifo)
    (wait : s.noticeReq.wait ≤ Config.waitLimit)
    (attn : s.notice.mode = .level → s.notice.attn = s.levelAttn) :
    NoticeRight (stopIfFull s) := by
  unfold stopIfFull
  split
  case isTrue goes =>
    refine ⟨fifo, wait, fun writing => ?_, attn⟩
    simp only [State.ringRoom, Bool.or_eq_true, bne_iff_ne, Option.isNone_iff_eq_none] at goes
    exact goes.resolve_right writing
  case isFalse => exact ⟨fifo, Nat.zero_le _, fun writing => absurd rfl writing, attn⟩

theorem attnAtConsumer_right (s : State) : (attnAtConsumer s).notice.mode = .level →
    (attnAtConsumer s).notice.attn = (attnAtConsumer s).levelAttn := by
  unfold attnAtConsumer
  cases mode : s.notice.mode with
  | level => exact fun _ => rfl
  | first => exact fun level => by simp [mode] at level

theorem attnAtConsumer_fifo (s : State) : (attnAtConsumer s).notice.fifo = s.notice.fifo := by
  unfold attnAtConsumer
  split <;> rfl

theorem attnAtConsumer_port {s : State} (h : PortRight s) : PortRight (attnAtConsumer s) :=
  h.congr (by simp) (by simp) (by simp)

theorem stopIfFull_port {s : State} (h : PortRight s) : PortRight (stopIfFull s) := by
  unfold stopIfFull abandonNoticeWrite
  split
  · exact h
  · exact (withdrawNotice_port h).congr rfl rfl rfl

theorem consumerSnoop_quiet (data : Word) (enables : Enables) (s : State) :
    Quiet s (consumerSnoop data enables s) := by
  refine ⟨fun h => ?_, fun h => ?_, by simp, by simp, by simp, by simp, by simp, by simp, by simp,
    by simp [State.records], by simp, by simp⟩
  · unfold consumerSnoop
    split
    · exact noticePump_right (stopIfFull_right (by simpa [attnAtConsumer_fifo] using h.fifo)
        (by simpa using h.wait) (attnAtConsumer_right _))
    · exact ⟨h.fifo, h.wait, h.ring, h.attn⟩
  · unfold consumerSnoop
    split
    · have stopped := stopIfFull_port (attnAtConsumer_port (s := { s with notice :=
        { s.notice with consumer := data.toNat } }) (h.congr rfl rfl rfl))
      exact stopped.congr (by simp) (by simp) (by simp)
    · exact h.congr rfl rfl rfl

theorem noticeConsumerIndex_quiet (data : Word) (enables : Enables) (s : State) :
    Quiet s (noticeConsumerIndex data enables s) := by
  unfold noticeConsumerIndex
  split
  · exact .refl s
  · exact consumerSnoop_quiet _ _ s

theorem takeAttnMode_right {s : State} (mode : AttnMode) (h : NoticeRight s) :
    NoticeRight (takeAttnMode mode s) := by
  unfold takeAttnMode
  cases mode with
  | level => exact ⟨h.fifo, h.wait, h.ring, fun _ => rfl⟩
  | first => exact ⟨h.fifo, h.wait, h.ring, fun level => by simp at level⟩

theorem setMask_right {s : State} (mask : BitVec 8) (h : NoticeRight s) :
    NoticeRight (setMask mask s) :=
  ⟨h.fifo, h.wait, h.ring, h.attn⟩

theorem commandSetNoticeMask_quiet (mask : BitVec 8) (s : State) :
    Quiet s (commandSetNoticeMask mask s) :=
  whenIdle_quiet (fun s => (Quiet.of_notice (setMask_right (s := s) mask)).trans (ackTaken_quiet _ _ _)) _ s

theorem commandSetAttnMode_quiet (mode : AttnMode) (s : State) :
    Quiet s (commandSetAttnMode mode s) :=
  whenIdle_quiet (fun s =>
    (Quiet.of_notice (takeAttnMode_right (s := s) mode)).trans (ackTaken_quiet _ _ _)) _ s

theorem commandStatusClear_quiet (s : State) : Quiet s (commandStatusClear s) := by
  refine whenIdle_quiet (fun s => Quiet.trans ?_ (ackTaken_quiet _ _ _)) .statusClear s
  exact .of_notice fun h => ⟨h.fifo, h.wait, h.ring, h.attn⟩

/-! ### Station contexts and their notices (R81) -/

theorem setStation_quiet (st : StationIx) (x : Station) (s : State) : Quiet s (s.setStation st x) :=
  .of_same

theorem changeStation_quiet (st : StationIx) (x : Station) (cause : StationCause) (arg : Word)
    (s : State) : Quiet s (changeStation st x cause arg s) :=
  (setStation_quiet st x s).trans (raise_quiet _ _)

theorem recordReject_quiet (st : StationIx) (cause : RejectCause) (arg16 : BitVec 16) (arg32 : Word)
    (s : State) : Quiet s (recordReject st cause arg16 arg32 s) := raise_quiet _ s

theorem loseLock_quiet (st : StationIx) (cause : StationCause) (s : State) :
    Quiet s (loseLock st cause s) := changeStation_quiet _ _ _ _ s

theorem raiseFaultRun_quiet (st : StationIx) (s : State) : Quiet s (raiseFaultRun st s) := by
  unfold raiseFaultRun
  simp only
  split
  · exact (setStation_quiet _ _ s).trans (loseLock_quiet _ _ _)
  · exact setStation_quiet _ _ s

theorem rejectRecord_quiet (st : StationIx) (slot : Nat) (ws : List Word) (cause : RejectCause)
    (s : State) : Quiet s (rejectRecord st slot ws cause s) := by
  unfold rejectRecord
  refine (setStation_quiet st (s.station st).rejected s).trans ?_
  simp only
  split
  · exact (recordReject_quiet _ _ _ _ _).trans (raiseFaultRun_quiet _ _)
  all_goals exact .refl _

theorem frameGood_quiet (st : StationIx) (t : Tag) (s : State) : Quiet s (frameGood st t s) := by
  unfold frameGood
  split
  · exact changeStation_quiet _ _ _ _ s
  all_goals exact setStation_quiet _ _ s

theorem alignReject_quiet (st : StationIx) (expected offset : Nat) (data : Word) (enables : Enables)
    (s : State) : Quiet s (alignReject st expected offset data enables s) := by
  unfold alignReject
  simp only
  split
  · exact ((setStation_quiet _ _ s).trans (recordReject_quiet _ _ _ _ _)).trans (loseLock_quiet _ _ _)
  all_goals exact setStation_quiet _ _ s

theorem countMiss_quiet (l : Letter) (s : State) (st : StationIx) : Quiet s (countMiss l s st) := by
  unfold countMiss
  simp only
  split
  · split
    · exact (setStation_quiet _ _ s).trans (raise_quiet _ _)
    · exact setStation_quiet _ _ s
  · exact .refl s

theorem countMisses_quiet (l : Letter) (s : State) : Quiet s (countMisses l s) := by
  unfold countMisses
  induction allStations generalizing s with
  | nil => exact .refl s
  | cons st sts ih => exact (countMiss_quiet l s st).trans (ih _)

/-! ### Entry assembly, pockets and the backplane -/

theorem setAssembly_quiet (a : EntryAssembly) (s : State) : Quiet s (setAssembly a s) := .of_same

theorem framingNotice_quiet (c : FramingBreak) (i : Nat) (held : Option Nat) (s : State) :
    Quiet s (framingNotice c i held s) := raise_quiet _ s

theorem batchEnd_quiet (p : PocketIx) (s : State) : Quiet s (batchEnd p s) :=
  (raise_quiet _ s).trans (batchToChain_quiet _)

theorem fillNotices_quiet (p : PocketIx) (tag : Word) (s : State) :
    Quiet s (fillNotices p tag s) := by
  unfold fillNotices
  simp only
  split
  · split
    · exact (raise_quiet _ s).trans (raise_quiet _ _)
    · exact raise_quiet _ s
  · split
    · exact raise_quiet _ s
    · exact .refl s

theorem respond_quiet (m : MasterNo) (a : Option (Option Word)) (s : State) :
    Quiet s (respond m a s) := .of_same

theorem respondWord_quiet (m : MasterNo) (w : Word) (s : State) : Quiet s (respondWord m w s) :=
  .of_same

theorem blockWrite_quiet (cause : BlockCause) (addr : Word) (master : MasterNo) (enables : Enables)
    (s : State) : Quiet s (blockWrite cause addr master enables s) :=
  ((respond_quiet _ _ s).trans (setGuardFlag_quiet _)).trans (raise_quiet _ _)

theorem forward_quiet (a : Access) (r : Region) (s : State) : Quiet s (forward a r s) := .of_same

/-! ### Sweep commands -/

theorem commandSweepFirst_quiet (p : PocketIx) (s : State) : Quiet s (commandSweepFirst p s) := by
  refine whenIdle_quiet (fun s => ?_) _ s
  split
  case h_3 =>
    split
    · exact refuseSweep_quiet _ _ s
    · exact Quiet.trans .of_same (ackSweep_quiet _ _ _)
  all_goals exact refuseSweep_quiet _ _ s

theorem commandSweepLast_quiet (p : PocketIx) (s : State) : Quiet s (commandSweepLast p s) := by
  refine whenIdle_quiet (fun s => ?_) _ s
  split
  case h_3 =>
    split
    · exact refuseSweep_quiet _ _ s
    · exact Quiet.trans .of_same (ackSweep_quiet _ _ _)
  all_goals exact refuseSweep_quiet _ _ s

theorem commandSweepExclude_quiet (p : PocketIx) (s : State) :
    Quiet s (commandSweepExclude p s) := by
  refine whenIdle_quiet (fun s => ?_) _ s
  split
  case h_3 =>
    split
    · exact Quiet.trans .of_same (ackSweep_quiet _ _ _)
    · exact refuseSweep_quiet _ _ s
  all_goals exact refuseSweep_quiet _ _ s

/-! ### The arbiter (R20) -/

theorem grantPassthrough_quiet {s : State} (notice : s.noticeReq.overdue = false)
    (chain : s.chainReq.overdue = false) (plan : s.planReq.overdue = false) :
    Quiet s (grantPassthrough s) := by
  have wait : ∀ r : OwnReq, r.overdue = false → r.wait ≤ Config.waitLimit →
      r.passedOver.wait ≤ Config.waitLimit := by
    intro r waiting bound
    unfold OwnReq.overdue at waiting
    unfold OwnReq.passedOver
    split
    case isTrue pending =>
      simp only [pending, Bool.true_and, decide_eq_false_iff_not, not_le] at waiting
      exact waiting
    case isFalse => exact bound
  unfold grantPassthrough
  split
  · refine ⟨fun h => ⟨h.fifo, wait _ notice h.wait, h.ring, h.attn⟩, fun h => ?_, rfl, rfl, rfl,
      rfl, rfl, rfl, rfl, rfl, rfl, rfl⟩
    exact ⟨wait _ chain h.chainWait, wait _ plan h.planWait, by simp [State.atMemory, Job.requester]⟩
  · exact .refl s

end Sys2Proof.Proofs
end

section
/-! PROOFS. What becomes of the letters in every command: each stays, changed only as its state allows, or has a new record in the retire buffer (R63, R65, R84, R118). -/

namespace Sys2Proof.Proofs

open Sys2Proof Sys2Proof.Machine Sys2Proof.Laws

/-! ### A letter before and after -/

/-- `x` is `l` later on: the same letter, and where `l` is DECIDED its decision, what was formed with it and its read set stand (R65, R84, R105). -/
def LetterFollows (l x : Letter) : Prop :=
  x.tag = l.tag ∧ ∀ d, l.state = .decided d →
    x.state = .decided d ∧ x.accountKey = l.accountKey ∧ x.reasonClass = l.reasonClass ∧
    x.forwardPresent = l.forwardPresent ∧ x.reads = l.reads

theorem LetterFollows.refl (l : Letter) : LetterFollows l l :=
  ⟨rfl, fun _ decided => ⟨decided, rfl, rfl, rfl, rfl⟩⟩

theorem LetterFollows.trans {l x y : Letter} (h : LetterFollows l x) (k : LetterFollows x y) :
    LetterFollows l y := by
  obtain ⟨tag, stands⟩ := h
  obtain ⟨tag', stands'⟩ := k
  refine ⟨tag'.trans tag, fun d decided => ?_⟩
  obtain ⟨state, key, reason, forward, reads⟩ := stands d decided
  obtain ⟨state', key', reason', forward', reads'⟩ := stands' d state
  exact ⟨state', key'.trans key, reason'.trans reason, forward'.trans forward, reads'.trans reads⟩

/-- A letter that has no decision to keep. -/
theorem letterFollows_of_undecided {l x : Letter} (tag : x.tag = l.tag)
    (undecided : ∀ d, l.state ≠ .decided d) : LetterFollows l x :=
  ⟨tag, fun d decided => absurd decided (undecided d)⟩

/-- The letters of `s` are in `t`, later on, or have each one new record in the retire buffer; none has entered, no record has left, and the queue stands. -/
structure Carries (s t : State) : Prop where
  conserved : ∃ new, t.records = s.records ++ new ∧ (new.map (·.tag) ++ t.tags).Perm s.tags
  follow    : ∀ x ∈ t.transit.letters, ∃ l ∈ s.transit.letters, LetterFollows l x
  pending   : t.pending = s.pending

theorem Carries.trans {s t u : State} (h : Carries s t) (k : Carries t u) : Carries s u := by
  obtain ⟨⟨new, records, tags⟩, follow, pending⟩ := h
  obtain ⟨⟨new', records', tags'⟩, follow', pending'⟩ := k
  refine ⟨⟨new ++ new', by rw [records', records, List.append_assoc], ?_⟩, fun y hy => ?_,
    pending'.trans pending⟩
  · rw [List.map_append, List.append_assoc]
    exact (tags'.append_left _).trans tags
  · obtain ⟨x, hx, fx⟩ := follow' y hy
    obtain ⟨l, hl, fl⟩ := follow x hx
    exact ⟨l, hl, fl.trans fx⟩

theorem tags_of_forall₂ {ls xs : List Letter} (h : List.Forall₂ LetterFollows ls xs) :
    xs.map (·.tag) = ls.map (·.tag) := by
  induction h with
  | nil => rfl
  | cons h _ ih => rw [List.map_cons, List.map_cons, ih, h.1]

/-- Every letter stays in its place. -/
theorem carries_of_forall₂ {s t : State} (records : t.records = s.records)
    (letters : List.Forall₂ LetterFollows s.transit.letters t.transit.letters)
    (pending : t.pending = s.pending) : Carries s t := by
  have tags : t.tags = s.tags := tags_of_forall₂ letters
  refine ⟨⟨[], by rw [records, List.append_nil], by rw [tags]; exact .refl _⟩, fun x hx => ?_,
    pending⟩
  obtain ⟨i, hi, rfl⟩ := List.getElem_of_mem hx
  obtain ⟨length, at_⟩ := List.forall₂_iff_get.1 letters
  exact ⟨_, List.getElem_mem (length ▸ hi), at_ i (length ▸ hi) hi⟩

theorem forall₂_letterFollows_refl (ls : List Letter) : List.Forall₂ LetterFollows ls ls :=
  List.forall₂_same.2 fun l _ => .refl l

theorem Quiet.carries {s t : State} (h : Quiet s t) : Carries s t :=
  carries_of_forall₂ h.records (h.letters ▸ forall₂_letterFollows_refl _) h.pending

theorem Carries.refl (s : State) : Carries s s := (Quiet.refl s).carries

/-- A change of the pocket table, the plan or other registers carries the letters. -/
theorem carries_of_same {s t : State} (retire : t.retire = s.retire := by simp)
    (letters : t.transit.letters = s.transit.letters := by simp)
    (pending : t.pending = s.pending := by simp) : Carries s t :=
  carries_of_forall₂ (State.records_congr retire) (letters ▸ forall₂_letterFollows_refl _) pending

/-! ### Departures (R118) -/

/-- One letter leaves the list and has one new record, whatever else has happened in between. -/
theorem depart_carries {s u : State} {before after : List Letter} {l : Letter}
    (o : DispositionOutcome) (letters : s.transit.letters = before ++ l :: after)
    (removed : u.transit.letters = before ++ after) (records : u.records = s.records)
    (pending : u.pending = s.pending) : Carries s (depart o l u) := by
  have left : (depart o l u).transit.letters = before ++ after := by simp [removed]
  refine ⟨⟨[u.disposition o l], by rw [depart_records, records], ?_⟩, fun x hx => ?_,
    by simp [pending]⟩
  · simp only [State.tags, letters, left, List.map_append, List.map_cons, List.map_nil,
      List.singleton_append]
    exact List.perm_middle.symm
  · refine ⟨x, ?_, .refl x⟩
    rw [letters]
    rw [left] at hx
    exact List.mem_append.2 ((List.mem_append.1 hx).imp_right (List.mem_cons_of_mem _))

theorem expireLost_carries {s : State} {l : Letter} {rest : List Letter}
    (h : s.transit.letters = l :: rest) : Carries s (expireLost l rest s) :=
  (depart_carries (u := s.setLetters rest) (before := []) .lost h rfl rfl rfl).trans
    (raise_quiet _ _).carries

theorem takeLost_carries (ls : List Letter) (s : State) (h : s.transit.letters = ls) :
    Carries s (takeLost ls s) := by
  induction ls generalizing s with
  | nil => exact .refl s
  | cons l rest ih =>
    unfold takeLost
    split
    · exact (expireLost_carries h).trans (ih _ (by simp [expireLost]))
    · exact .refl s

theorem purgeLetters_carries (ls : List Letter) (s : State) (h : s.transit.letters = ls) :
    Carries s (purgeLetters ls s) := by
  induction ls generalizing s with
  | nil => exact .refl s
  | cons l rest ih =>
    have left : (depart .purged l (s.setLetters rest)).transit.letters = rest := by simp
    exact (depart_carries (u := s.setLetters rest) (before := []) .purged h rfl rfl rfl).trans (ih _ left)

@[simp] theorem raiseFill_records (p : PocketIx) (tag : Word) (s : State) :
    (raiseFill p tag s).records = s.records := State.records_congr (by simp)

theorem removeLetter_letters {s : State} {before after : List Letter} {l : Letter}
    {slot : BitVec 8} (letters : s.transit.letters = before ++ l :: after)
    (found : slotOf l.tag = slot) (first : ∀ x ∈ before, slotOf x.tag ≠ slot) :
    (removeLetter slot s).transit = { s.transit with letters := before ++ after } := by
  have erased : s.transit.letters.eraseP (fun l => slotOf l.tag == slot) = before ++ after := by
    have skips : ∀ x ∈ before, ¬ (slotOf x.tag == slot) = true := by simpa using first
    rw [letters, List.eraseP_append_right _ skips]
    simp [found]
  simp [removeLetter, erased]

theorem dispatch_carries (slot : BitVec 8) (master : MasterNo) (s : State) :
    Carries s (dispatch slot master s) := by
  unfold dispatch
  cases found : s.letterBySlot slot with
  | none =>
    exact (carries_of_same (t := raiseFill 0 0xFFFFFFFF#32 s)).trans (raise_quiet _ _).carries
  | some l =>
    obtain ⟨before, after, letters, here, first⟩ := (letterBySlot_eq_some_iff s slot l).1 found
    have removed := removeLetter_letters letters here first
    have records : (removeLetter slot s).records = s.records := State.records_congr (by simp)
    have filled : ∀ p tag o, Carries s (depart o l (raiseFill p tag (removeLetter slot s))) :=
      fun p tag o => depart_carries o letters (by simp [removed]) (by simp [records])
        (by simp)
    simp only [dispatchLetter]
    split <;> exact filled _ _ _

/-! ### Resolutions and reads (R84, R85, R96) -/

/-- A test that no DECIDED letter meets. -/
def PassesOver (ready : Letter → Bool) : Prop := ∀ l d, l.state = .decided d → ready l = false

theorem passesOver_collecting : PassesOver Letter.collecting := by
  intro l d decided
  simp [Letter.collecting, decided]

theorem passesOver_awaiting : PassesOver Letter.awaiting := by
  intro l d decided
  simp [Letter.awaiting, decided]

theorem passesOver_readyNow (s : State) : PassesOver s.readyNow := fun l d decided => by
  simp [State.readyNow, passesOver_collecting l d decided]

theorem passesOver_testLetter (t : Tag) (s : State) :
    PassesOver fun l => l.tag == t && s.readyNow l := fun l d decided => by
  simp [passesOver_readyNow s l d decided]

theorem resolveLetter_follows {ready : Letter → Bool} (undecided : PassesOver ready) (plan : Plan)
    (pk : Pockets) {l : Letter} (h : ready l = true) :
    LetterFollows l (resolveLetter plan pk l).2 :=
  letterFollows_of_undecided (resolveLetter_tag plan pk l) fun d decided => by
    simp [undecided l d decided] at h

theorem resolveList_follows {ready : Letter → Bool} (undecided : PassesOver ready) (plan : Plan)
    (pk : Pockets) (ls : List Letter) :
    List.Forall₂ LetterFollows ls (resolveList plan ready pk ls).2 := by
  induction ls generalizing pk with
  | nil => exact .nil
  | cons l ls ih =>
    unfold resolveList
    split
    case isTrue h => exact .cons (resolveLetter_follows undecided plan pk h) (ih _)
    case isFalse => exact .cons (.refl l) (ih _)

theorem resolveFirst_follows {ready : Letter → Bool} (undecided : PassesOver ready) (plan : Plan)
    (pk : Pockets) (ls : List Letter) :
    List.Forall₂ LetterFollows ls (resolveFirst plan ready pk ls).2 := by
  induction ls generalizing pk with
  | nil => exact .nil
  | cons l ls ih =>
    unfold resolveFirst
    split
    case isTrue h => exact .cons (resolveLetter_follows undecided plan pk h) (forall₂_letterFollows_refl _)
    case isFalse => exact .cons (.refl l) (ih _)

theorem resolveWhere_carries {ready : Letter → Bool} (undecided : PassesOver ready) (s : State) :
    Carries s (s.resolveWhere ready) :=
  carries_of_forall₂ rfl (resolveList_follows undecided _ _ _) rfl

theorem resolveOne_carries {ready : Letter → Bool} (undecided : PassesOver ready) (s : State) :
    Carries s (s.resolveOne ready) :=
  carries_of_forall₂ rfl (resolveFirst_follows undecided _ _ _) rfl

theorem resolveReady_carries (s : State) : Carries s (resolveReady s) :=
  resolveWhere_carries (passesOver_readyNow s) s

theorem resolveAwaiting_carries (s : State) : Carries s (resolveAwaiting s) :=
  resolveWhere_carries passesOver_awaiting s

theorem decideDue_carries (s : State) : Carries s (decideDue s) := by
  unfold decideDue expireDecide
  split
  case h_1 l watched =>
    split
    · have first := (resolveOne_carries passesOver_collecting s).trans
        (countMisses_quiet l _).carries
      simp only
      split
      · exact first.trans (resolveReady_carries _)
      · exact first
    · exact .refl s
  case h_2 => exact .refl s

theorem takeDecides_carries (n : Nat) (s : State) : Carries s (takeDecides n s) := by
  induction n generalizing s with
  | zero => exact .refl s
  | succ n ih => exact (decideDue_carries s).trans (ih _)

theorem takeRead_follows (r : Read) (l : Letter) : LetterFollows l (l.takeRead r) := by
  unfold Letter.takeRead Letter.joinRead
  cases state : l.state with
  | decided d => exact ⟨rfl, fun _ decided => ⟨by rw [← decided, state], rfl, rfl, rfl, rfl⟩⟩
  | collecting | awaitPlan =>
    refine letterFollows_of_undecided ?_ (fun d => by simp [state])
    simp only
    split <;> rfl

theorem report_follows (st : StationIx) (l : Letter) : LetterFollows l (l.report st) :=
  ⟨rfl, fun _ decided => ⟨decided, rfl, rfl, rfl, rfl⟩⟩

theorem modifyFirst_follows {f : Letter → Letter} (follows : ∀ l, LetterFollows l (f l))
    (p : Letter → Bool) (ls : List Letter) :
    List.Forall₂ LetterFollows ls (modifyFirst p f ls) := by
  induction ls with
  | nil => exact .nil
  | cons l ls ih =>
    unfold modifyFirst
    split
    · exact .cons (follows l) (forall₂_letterFollows_refl _)
    · exact .cons (.refl l) ih

theorem changeLetter_carries {f : Letter → Letter} (follows : ∀ l, LetterFollows l (f l)) (t : Tag)
    (s : State) : Carries s (s.changeLetter t f) :=
  carries_of_forall₂ rfl (modifyFirst_follows follows _ _) rfl

theorem takeRecord_carries (st : StationIx) (ws : List Word) (s : State) :
    Carries s (takeRecord st ws s) := by
  unfold takeRecord
  simp only
  have delivered : Carries s (deliverRead st ws
      (s.setStation st { s.station st with lastTag := some (recordTag ws) })) := by
    unfold deliverRead
    split
    · exact (setStation_quiet _ _ s).carries.trans (changeLetter_carries (takeRead_follows _) _ _)
    · exact (setStation_quiet _ _ s).carries
  split
  · unfold reportLast testLetter
    exact ((delivered.trans (changeLetter_carries (report_follows st) _ _)).trans
      (setStation_quiet _ _ _).carries).trans (resolveOne_carries (passesOver_testLetter _ _) _)
  · exact delivered

theorem completeRecord_carries (st : StationIx) (slot : Nat) (ws : List Word) (s : State) :
    Carries s (completeRecord st slot ws s) := by
  unfold completeRecord
  split
  · exact (rejectRecord_quiet _ _ _ _ s).carries
  · exact (frameGood_quiet _ _ s).carries.trans (takeRecord_carries _ _ _)

theorem stationSnoop_carries (st : StationIx) (offset : Nat) (data : Word) (enables : Enables)
    (s : State) : Carries s (stationSnoop st offset data enables s) := by
  have assembled : Carries s (assembleWord st offset data enables s) := by
    unfold assembleWord collectWord
    split
    · exact (setStation_quiet _ _ s).carries
    · split
      · split
        · exact (setStation_quiet _ _ s).carries
        · exact (setStation_quiet _ _ s).carries.trans (completeRecord_carries _ _ _ _)
      · exact (alignReject_quiet _ _ _ _ _ s).carries
  unfold stationSnoop
  cases (s.station st).framing with
  | off => exact .refl s
  | hunt | locked => exact assembled

/-! ### Line, pockets and stations -/

theorem setLine_carries (line : LineState) (cause : LineCause) (s : State) :
    Carries s (setLine line cause s) := carries_of_same

theorem stallExpired_carries (s : State) : Carries s (stallExpired s) := carries_of_same

theorem advance_carries (s : State) : Carries s (advance s) := by
  have counted : Carries s (restartStall (endStall (countAdvance s))) :=
    carries_of_same (by simp) (by simp; rfl)
  exact (counted.trans (takeLost_carries _ _ rfl)).trans (takeDecides_carries _ _)

theorem closeBatch_carries (p : PocketIx) (x : PocketState) (s : State) :
    Carries s (closeBatch p x s) :=
  (carries_of_same (t := s.setPocket p { s.pocket p with state := x })).trans
    (batchEnd_quiet _ _).carries

theorem drainComplete_carries (p : PocketIx) (s : State) : Carries s (drainComplete p s) := by
  unfold drainComplete drainIfEmpty
  split
  · exact .refl s
  · split
    · split
      · exact closeBatch_carries _ _ s
      · exact .refl s
    all_goals exact .refl s

theorem whenIdle_carries {own : State → State} (h : ∀ s, Carries s (own s)) (c : Command)
    (s : State) : Carries s (whenIdle c own s) := by
  unfold whenIdle
  split
  · exact .refl s
  · split
    · exact (refuse_quiet _ _ s).carries
    · exact h s

theorem commandPurge_carries (s : State) : Carries s (commandPurge s) :=
  whenIdle_carries (fun s =>
    (purgeLetters_carries _ s rfl).trans (ackTaken_quiet _ _ _).carries) _ s

theorem commandStart_carries (s : State) : Carries s (commandStart s) := by
  refine whenIdle_carries (fun s => ?_) _ s
  split
  case h_3 => exact carries_of_same
  all_goals exact (refuse_quiet _ _ s).carries

theorem commandStop_carries (s : State) : Carries s (commandStop s) := by
  refine whenIdle_carries (fun s => ?_) _ s
  split
  case h_3 => exact (ackTaken_quiet _ _ s).carries
  all_goals exact carries_of_same

theorem pocketCommandOn_carries {own : State → State} (h : ∀ s, Carries s (own s)) (c : Command)
    (p : PocketIx) (s : State) : Carries s (pocketCommandOn c p own s) := by
  refine whenIdle_carries (fun s => ?_) _ s
  split
  · exact (refuse_quiet _ _ s).carries
  · exact h s

theorem newBatch_carries (c : Command) (p : PocketIx) (s : State) :
    Carries s (ackBatch c p (newBatch p s)) := carries_of_same

theorem commandPocketOpen_carries (p : PocketIx) (s : State) :
    Carries s (commandPocketOpen p s) := by
  refine pocketCommandOn_carries (fun s => ?_) _ p s
  split
  · exact newBatch_carries _ p s
  all_goals exact (refuse_quiet _ _ s).carries

theorem commandPocketEnable_carries (p : PocketIx) (s : State) :
    Carries s (commandPocketEnable p s) := by
  refine pocketCommandOn_carries (fun s => ?_) _ p s
  split
  · exact newBatch_carries _ p s
  all_goals exact (refuse_quiet _ _ s).carries

theorem commandPocketDisable_carries (p : PocketIx) (s : State) :
    Carries s (commandPocketDisable p s) := by
  refine pocketCommandOn_carries (fun s => ?_) _ p s
  unfold disablePocket
  simp only
  split
  · split
    · exact (closeBatch_carries _ _ s).trans (ackTaken_quiet _ _ _).carries
    · exact carries_of_same
  · exact carries_of_same
  · exact carries_of_same
  · exact (refuse_quiet _ _ s).carries

theorem sweepPockets_carries (ps : List PocketIx) (s : State) : Carries s (sweepPockets ps s) := by
  induction ps generalizing s with
  | nil => exact .refl s
  | cons p ps ih =>
    refine Carries.trans ?_ (ih (sweepPocket p s))
    unfold sweepPocket
    split
    · split
      · exact closeBatch_carries _ _ s
      · exact carries_of_same
    · exact (raise_quiet _ s).carries
    all_goals exact .refl s

theorem commandSweepGo_carries (s : State) : Carries s (commandSweepGo s) := by
  refine whenIdle_carries (fun s => ?_) _ s
  split
  case h_3 first last ex _ =>
    refine Carries.trans ?_ (ackSweep_quiet _ _ _).carries
    exact (sweepPockets_carries (sweepSelection first last ex) s).trans (carries_of_same rfl rfl)
  all_goals exact (refuseSweep_quiet _ _ s).carries

theorem stationCommandOn_carries {own : State → State} (h : ∀ s, Carries s (own s)) (c : Command)
    (st : StationIx) (s : State) : Carries s (stationCommandOn c st own s) := by
  refine whenIdle_carries (fun s => ?_) _ s
  split
  · exact (refuse_quiet _ _ s).carries
  · exact h s

theorem huntStation_carries (st : StationIx) (cause : StationCause) (s : State) :
    Carries s (huntStation st cause s) :=
  (changeStation_quiet _ _ _ _ s).carries.trans (resolveReady_carries _)

theorem disableStation_carries (st : StationIx) (s : State) : Carries s (disableStation st s) := by
  unfold disableStation testIfExpected
  split
  · exact (changeStation_quiet _ _ _ _ s).carries.trans (resolveReady_carries _)
  · exact (changeStation_quiet _ _ _ _ s).carries

theorem commandStationDisable_carries (st : StationIx) (s : State) :
    Carries s (commandStationDisable st s) := by
  refine stationCommandOn_carries (fun s => ?_) _ st s
  split
  case h_3 => exact (ackTaken_quiet _ _ s).carries
  all_goals exact (disableStation_carries st s).trans (ackTaken_quiet _ _ _).carries

theorem commandStationEnable_carries (st : StationIx) (s : State) :
    Carries s (commandStationEnable st s) := by
  refine stationCommandOn_carries (fun s => ?_) _ st s
  split
  case h_1 => exact (huntStation_carries st _ s).trans (ackTaken_quiet _ _ _).carries
  all_goals exact (refuse_quiet _ _ s).carries

theorem commandStationRestart_carries (st : StationIx) (s : State) :
    Carries s (commandStationRestart st s) := by
  refine stationCommandOn_carries (fun s => ?_) _ st s
  split
  case h_3 => exact (refuse_quiet _ _ s).carries
  all_goals exact (huntStation_carries st _ s).trans (ackTaken_quiet _ _ _).carries

/-! ### The plan loader -/

theorem readPlanWord_carries (ld : Load) (s : State) : Carries s (readPlanWord ld s) :=
  carries_of_same

theorem ackLoad_carries (r : ResultCode) (cause : Option LoadCause) (kept : Bool) (arg : Word)
    (s : State) : Carries s (ackLoad r cause kept arg s) := carries_of_same

theorem failLoad_carries (ld : Load) (cause : LoadCause) (detail : Word) (s : State) :
    Carries s (failLoad ld cause detail s) := by
  have unloaded : Carries s { s with plan := { s.plan with state := .invalid, load := none } } :=
    carries_of_same rfl rfl
  exact (unloaded.trans (resolveAwaiting_carries _)).trans (ackLoad_carries _ _ _ _ _)

theorem placeLayout_letters (ld : Load) (l : Layout) (s : State) :
    (placeLayout ld l s).transit.letters = s.transit.letters := by
  simp only [placeLayout, evalFeedHold_frame]
  split <;> simp [applyLayout]

theorem completeLoadWith_carries (ld : Load) (l : Layout) (p : Params) (s : State) :
    Carries s (completeLoadWith ld l p s) := by
  unfold completeLoadWith
  refine (Carries.trans ?_ (resolveAwaiting_carries _)).trans (ackLoad_carries _ _ _ _ _)
  exact carries_of_same (by simp) (by simp [placeLayout_letters])

theorem blockPassed_carries (ld : Load) (s : State) : Carries s (blockPassed ld s) := by
  unfold blockPassed
  split
  · split
    · exact completeLoadWith_carries _ _ _ s
    · exact readPlanWord_carries _ s
  · exact readPlanWord_carries _ s

theorem checkPayload_carries (ld : Load) (bs : List Byte) (s : State) :
    Carries s (checkPayload ld bs s) := by
  unfold checkPayload
  split
  · split
    · unfold checkPocketBlock
      split
      · exact failLoad_carries _ _ _ s
      · exact blockPassed_carries _ s
    · unfold checkRuleBlock
      split
      · exact failLoad_carries _ _ _ s
      · exact blockPassed_carries _ s
  · unfold checkParamBlock
    split
    · exact failLoad_carries _ _ _ s
    · exact blockPassed_carries _ s
  · unfold checkLayoutBlock
    simp only
    split
    · exact failLoad_carries _ _ _ s
    · split
      · exact failLoad_carries _ _ _ s
      · exact blockPassed_carries _ s

theorem planWord_carries (ld : Load) (data : Word) (s : State) : Carries s (planWord ld data s) := by
  unfold planWord checkBlock
  simp only
  split
  · exact readPlanWord_carries _ s
  · split
    · exact failLoad_carries _ _ _ s
    · split
      · exact failLoad_carries _ _ _ s
      · exact checkPayload_carries _ _ s

theorem planReadDone_carries (answer : MemAnswer) (s : State) :
    Carries s (planReadDone answer s) := by
  have answered : Carries s (planAnswer answer (freePort s)) := by
    refine (freePort_quiet s).carries.trans ?_
    unfold planAnswer
    split
    · cases answer with
      | ok data => exact planWord_carries _ data _
      | error => exact (setMemoryFlag_quiet _).carries.trans (failLoad_carries _ _ _ _)
    · exact .refl _
  unfold planReadDone
  split
  · split
    · split
      · exact (freePort_quiet s).carries
      · exact answered
    · exact .refl s
  · exact .refl s

theorem commandLoadPlan_carries (arg : BitVec 24) (s : State) : Carries s (commandLoadPlan arg s) :=
  whenIdle_carries (fun _ => carries_of_same) _ s

theorem commandLoadAbort_carries (s : State) : Carries s (commandLoadAbort s) := by
  unfold commandLoadAbort abortLoad
  split
  · exact .refl s
  · split
    · split
      · exact ((withdrawPlan_quiet s).carries.trans (failLoad_carries _ _ _ _)).trans
          (ackTaken_quiet _ _ _).carries
      · exact (ackTaken_quiet _ _ s).carries
    · exact (refuse_quiet _ _ s).carries

/-! ### Commands -/

/-- A command of the command word carries every letter. -/
theorem runCommand_carries (c : Command) (s : State) : Carries s (runCommand c s) := by
  cases c with
  | loadPlan arg => exact commandLoadPlan_carries arg s
  | loadAbort => exact commandLoadAbort_carries s
  | start => exact commandStart_carries s
  | stop => exact commandStop_carries s
  | purge => exact commandPurge_carries s
  | sweepFirst p => exact (commandSweepFirst_quiet p s).carries
  | sweepLast p => exact (commandSweepLast_quiet p s).carries
  | sweepExclude p => exact (commandSweepExclude_quiet p s).carries
  | sweepGo => exact commandSweepGo_carries s
  | pocketOpen p => exact commandPocketOpen_carries p s
  | pocketDisable p => exact commandPocketDisable_carries p s
  | pocketEnable p => exact commandPocketEnable_carries p s
  | stationEnable st => exact commandStationEnable_carries st s
  | stationDisable st => exact commandStationDisable_carries st s
  | stationRestart st => exact commandStationRestart_carries st s
  | chainStart => exact (commandChainStart_quiet s).carries
  | chainResume => exact (commandChainResume_quiet s).carries
  | chainStop => exact (commandChainStop_quiet s).carries
  | chainFlush => exact (commandChainFlush_quiet s).carries
  | setNoticeMask mask => exact (commandSetNoticeMask_quiet mask s).carries
  | setAttnMode mode => exact (commandSetAttnMode_quiet mode s).carries
  | statusClear => exact (commandStatusClear_quiet s).carries

theorem commandSnoop_carries (w : Word) (enables : Enables) (s : State) :
    Carries s (commandSnoop w enables s) := by
  unfold commandSnoop
  split
  · exact runCommand_carries _ s
  · exact (refuseWord_quiet w s).carries

end Sys2Proof.Proofs
end

section
/-! PROOFS. Every command has an effect, keeps the queue, and accounts for every letter and its decision (R63, R65, R105, R118, R148). -/

namespace Sys2Proof.Proofs

open Sys2Proof Sys2Proof.Machine Sys2Proof.Laws

/-! ### The effect of a command -/

/-- What a command makes of the state: exec without its outcome, the rows that are commands of the command word through runCommand. -/
def effect (c : Instr) (s : State) : State :=
  match c with
  | .resetAssert => resetAssert s
  | .resetRelease cb cm => resetRelease cb cm s
  | .encAdvance => encAdvance s
  | .stallExpiry => stallExpiry s
  | .lostExpiry => lostExpiry s
  | .decideExpiry => decideExpiry s
  | .backplaneAccess a => backplaneAccess a s
  | .gateDispatch slot => gateDispatch slot s
  | .arbiterGrant => arbiterGrant s
  | .passthroughDone answer => passthroughDone answer s
  | .inductionRingWrite offset data enables => inductionRingWrite offset data enables s
  | .stationRingWrite st offset data enables => stationRingWrite st offset data enables s
  | .drainComplete p => drainComplete p s
  | .planReadDone answer => planReadDone answer s
  | .chainDescReadDone answer => chainDescReadDone answer s
  | .chainRereadDone answer => chainRereadDone answer s
  | .chainRecordWordDone answer => chainRecordWordDone answer s
  | .chainCompletionDone answer => chainCompletionDone answer s
  | .noticeWordWriteDone answer => noticeWordWriteDone answer s
  | .badCommand word enables => badCommand word enables s
  | .noticeConsumerIndex data enables => noticeConsumerIndex data enables s
  | .chainBasePointer data enables => chainBasePointer data enables s
  | .chainLastPointer data enables => chainLastPointer data enables s
  | .loadPlan arg => runCommand (.loadPlan arg) s
  | .loadAbort => runCommand .loadAbort s
  | .start => runCommand .start s
  | .stop => runCommand .stop s
  | .purge => runCommand .purge s
  | .sweepFirst p => runCommand (.sweepFirst p) s
  | .sweepLast p => runCommand (.sweepLast p) s
  | .sweepExclude p => runCommand (.sweepExclude p) s
  | .sweepGo => runCommand .sweepGo s
  | .pocketOpen p => runCommand (.pocketOpen p) s
  | .pocketDisable p => runCommand (.pocketDisable p) s
  | .pocketEnable p => runCommand (.pocketEnable p) s
  | .stationEnable st => runCommand (.stationEnable st) s
  | .stationDisable st => runCommand (.stationDisable st) s
  | .stationRestart st => runCommand (.stationRestart st) s
  | .chainStart => runCommand .chainStart s
  | .chainResume => runCommand .chainResume s
  | .chainStop => runCommand .chainStop s
  | .chainFlush => runCommand .chainFlush s
  | .setNoticeMask mask => runCommand (.setNoticeMask mask) s
  | .setAttnMode mode => runCommand (.setAttnMode mode) s
  | .statusClear => runCommand .statusClear s

theorem exec_eq (c : Instr) (s : State) : exec c s = .next (effect c s) := by cases c <;> rfl

theorem exec_instr (c : Command) (s : State) : exec c.instr s = .next (runCommand c s) := by
  cases c <;> rfl

theorem effect_of_exec {c : Instr} {s t : State} (h : exec c s = .next t) : effect c s = t :=
  Host.Outcome.next.inj ((exec_eq c s).symm.trans h)

/-- Settles O1: step by definition. -/
theorem stepRunsFrontCommand : Obligations.StepRunsFrontCommand := fun _ _ _ => rfl

/-! ### Letters and records across one command -/

/-- Every letter of `s` is in `t` or has one new record; at most one letter has entered, in a slot that no letter had, and at most the head record has left the buffer. -/
structure Accounts (s t : State) : Prop where
  conserved : ∃ (left : Nat) (new : List Disposition) (entered : List Tag), left ≤ 1 ∧
    entered.length ≤ 1 ∧ t.records = s.records.drop left ++ new ∧
    (new.map (·.tag) ++ t.tags).Perm (s.tags ++ entered)
  follow : ∀ x ∈ t.transit.letters, (∃ l ∈ s.transit.letters, LetterFollows l x) ∨
    ∀ l ∈ s.transit.letters, slotOf l.tag ≠ slotOf x.tag
  pending : t.pending = s.pending

theorem Carries.accounts {s t : State} (h : Carries s t) : Accounts s t := by
  obtain ⟨new, records, tags⟩ := h.conserved
  exact ⟨⟨0, new, [], by decide, by decide, by simpa using records, by simpa using tags⟩,
    fun x hx => .inl (h.follow x hx), h.pending⟩

theorem Quiet.accounts {s t : State} (h : Quiet s t) : Accounts s t := h.carries.accounts

theorem Quiet.then_accounts {s t u : State} (h : Quiet s t) (k : Accounts t u) : Accounts s u := by
  have tags : t.tags = s.tags := by rw [State.tags, State.tags, h.letters]
  obtain ⟨conserved, follow, pending⟩ := k
  rw [h.records, tags] at conserved
  rw [h.letters] at follow
  exact ⟨conserved, follow, pending.trans h.pending⟩

/-- Once the head record has left and the occupancy is evaluated, the acceptance of a record goes on quietly (R148, R149). -/
theorem recordAccepted_quiet_after {s : State} {r : Retired} {rest : List Retired}
    (retire : s.retire = r :: rest) :
    Quiet (evalOccupancy { s with retire := rest }) (recordAccepted s) := by
  unfold recordAccepted
  simp only [retire]
  exact (setChain_quiet _ _).trans (testDescriptorEnd_quiet _ _)

theorem evalOccupancy_accounts {s : State} {r : Retired} {rest : List Retired}
    (retire : s.retire = r :: rest) : Accounts s (evalOccupancy { s with retire := rest }) := by
  have letters : (evalOccupancy { s with retire := rest }).transit.letters = s.transit.letters := by
    simp
  refine ⟨⟨1, [], [], le_refl _, by decide, ?_, ?_⟩, fun x hx => .inl ⟨x, ?_, .refl x⟩, by simp⟩
  · simp [State.records, retire]
  · rw [State.tags, State.tags, letters, List.append_nil]
    exact .refl _
  · rwa [← letters]

theorem Accounts.then_quiet {s t u : State} (h : Accounts s t) (k : Quiet t u) : Accounts s u := by
  have tags : u.tags = t.tags := by rw [State.tags, State.tags, k.letters]
  obtain ⟨conserved, follow, pending⟩ := h
  exact ⟨by rwa [k.records, tags], by rwa [k.letters], k.pending.trans pending⟩

theorem recordAccepted_accounts (s : State) : Accounts s (recordAccepted s) := by
  cases retire : s.retire with
  | nil =>
    simp only [recordAccepted, retire]
    exact (Quiet.refl s).accounts
  | cons r rest => exact (evalOccupancy_accounts retire).then_quiet (recordAccepted_quiet_after retire)

theorem chainAnswer_accounts {act : State → State} (h : ∀ s, Accounts s (act s)) (job : Job)
    (s : State) : Accounts s (chainAnswer job act s) := by
  rcases chainAnswer_cases job act s with e | e | e <;> rw [e]
  · exact (Quiet.refl s).accounts
  · exact ((freePort_quiet s).trans (afterAbandoned_quiet _)).accounts
  · exact (freePort_quiet s).then_accounts (h _)

theorem chainRecordWordDone_accounts (answer : WriteAnswer) (s : State) :
    Accounts s (chainRecordWordDone answer s) := by
  have accepted (u : State) : Accounts u (recordWordAccepted u) := by
    unfold recordWordAccepted
    split
    · split
      · exact recordAccepted_accounts u
      · exact (beginWork_quiet _ u).accounts
    all_goals exact (Quiet.refl u).accounts
  refine chainAnswer_accounts (fun u => ?_) .chainRecord s
  cases answer with
  | ok => exact accepted u
  | error => exact (chainMemoryFault_quiet u).accounts

/-- An entry that is not refused finds no letter in its slot. -/
theorem letterBySlot_of_entryRefusal_none {s : State} {e : Option Entry} {tag : Tag}
    (h : s.entryRefusal e tag = none) : s.letterBySlot (slotOf tag) = none := by
  unfold State.entryRefusal at h
  split at h
  · cases h
  · split at h
    · cases h
    · split at h
      · cases h
      · split at h
        · cases h
        · cases h
        · assumption

theorem entryOf_tag {first second : Word} {e : Entry} (h : entryOf first second = some e) :
    e.tag = entryTag second := by
  obtain ⟨-, -, c, -, rfl⟩ := (entryOf_eq_some_iff first second e).1 h
  rfl

theorem takeEntry_letters (e : Entry) (s : State) :
    (takeEntry e s).transit.letters = s.transit.letters ++ [s.newLetter e] := by
  simp [takeEntry]

theorem takeEntry_accounts {s : State} {e : Entry} (free : s.letterBySlot (slotOf e.tag) = none) :
    Accounts s (takeEntry e s) := by
  have letters := takeEntry_letters e s
  refine ⟨⟨0, [], [e.tag], by decide, le_refl _, ?_, ?_⟩, fun x hx => ?_, by simp [takeEntry]⟩
  · simp [takeEntry, State.records]
  · simp [State.tags, letters, State.newLetter]
  · rw [letters, List.mem_append, List.mem_singleton] at hx
    rcases hx with hx | rfl
    · exact .inl ⟨x, hx, .refl x⟩
    · exact .inr fun l hl => by simpa [State.newLetter] using List.find?_eq_none.1 free l hl

theorem completeEntry_accounts (first second : Word) (s : State) :
    Accounts s (completeEntry first second s) := by
  unfold completeEntry
  split
  case h_1 e passed entry =>
    exact takeEntry_accounts (entryOf_tag entry ▸ letterBySlot_of_entryRefusal_none passed)
  case h_2 => exact (raise_quiet _ s).accounts
  case h_3 => exact (Quiet.refl s).accounts

theorem inductionSnoop_accounts (offset : Nat) (data : Word) (enables : Enables) (s : State) :
    Accounts s (inductionSnoop offset data enables s) := by
  have framed (c : FramingBreak) (i : Nat) (held : Option Nat) (a : EntryAssembly) :
      Accounts s (framingNotice c i held (setAssembly a s)) :=
    ((setAssembly_quiet a s).trans (framingNotice_quiet _ _ _ _)).accounts
  unfold inductionSnoop
  simp only
  split
  · exact (setAssembly_quiet _ s).accounts
  · exact (framingNotice_quiet _ _ _ s).accounts
  · exact (framingNotice_quiet _ _ _ s).accounts
  · exact framed _ _ _ _
  · split
    · exact (setAssembly_quiet _ s).then_accounts (completeEntry_accounts _ _ _)
    · exact framed _ _ _ _
  · exact framed _ _ _ _

theorem inductionRingWrite_accounts (offset : Nat) (data : Word) (enables : Enables) (s : State) :
    Accounts s (inductionRingWrite offset data enables s) := by
  unfold inductionRingWrite
  split
  · exact inductionSnoop_accounts offset data enables s
  · exact (Quiet.refl s).accounts

theorem stationRingWrite_carries (st : StationIx) (offset : Nat) (data : Word) (enables : Enables)
    (s : State) : Carries s (stationRingWrite st offset data enables s) := by
  unfold stationRingWrite
  split
  · exact stationSnoop_carries st offset data enables s
  · exact .refl s

theorem gateRead_carries (slot : BitVec 8) (master : MasterNo) (s : State) :
    Carries s (gateRead slot master s) := by
  refine Carries.trans ?_ (respondWord_quiet _ _ _).carries
  unfold gateEffect
  split
  · exact dispatch_carries slot master s
  · exact .refl s

theorem gateDispatch_carries (slot : BitVec 8) (s : State) : Carries s (gateDispatch slot s) := by
  unfold gateDispatch
  split
  · exact .refl s
  · split
    · exact gateRead_carries slot _ s
    · exact .refl s

theorem answerOverlay_carries (o : Overlay) (master : MasterNo) (s : State) :
    Carries s (answerOverlay o master s) := by
  cases o with
  | word w => exact (respondWord_quiet master w s).carries
  | slot slot => exact gateRead_carries slot master s

theorem classify_carries (a : Access) (s : State) : Carries s (classify a s) := by
  unfold classify
  cases a.op with
  | write data enables =>
    cases s.writeRefusal a.addr a.master with
    | some cause => exact (blockWrite_quiet cause a.addr a.master enables s).carries
    | none => exact (forward_quiet a (s.regionOf a.addr) s).carries
  | read =>
    cases s.overlay (s.regionOf a.addr) with
    | some o => exact answerOverlay_carries o a.master s
    | none => exact (forward_quiet a (s.regionOf a.addr) s).carries

theorem backplaneAccess_carries (a : Access) (s : State) : Carries s (backplaneAccess a s) := by
  unfold backplaneAccess
  split
  · exact .refl s
  · exact classify_carries _ s

theorem lostExpiry_carries (s : State) : Carries s (lostExpiry s) := by
  unfold lostExpiry
  split
  · exact .refl s
  · split
    · exact .refl s
    case h_2 l rest letters =>
      split
      · exact expireLost_carries letters
      · exact .refl s

theorem decideExpiry_carries (s : State) : Carries s (decideExpiry s) := by
  unfold decideExpiry
  split
  · exact .refl s
  · exact decideDue_carries s

theorem encAdvance_carries (s : State) : Carries s (encAdvance s) := by
  unfold encAdvance
  split
  · exact .refl s
  · exact advance_carries s

theorem stallExpiry_carries (s : State) : Carries s (stallExpiry s) := by
  unfold stallExpiry
  split
  · exact stallExpired_carries s
  · exact .refl s

theorem badCommand_carries (w : Word) (enables : Enables) (s : State) :
    Carries s (badCommand w enables s) := by
  unfold badCommand
  split
  · exact .refl s
  · exact commandSnoop_carries w enables s

theorem arbiterGrant_carries (s : State) : Carries s (arbiterGrant s) := by
  unfold arbiterGrant
  split
  · exact .refl s
  · split
    · exact carries_of_same
    · exact .refl s

theorem windowSnoop_accounts (k : WindowKind) (offset : Nat) (data : Word) (enables : Enables)
    (s : State) : Accounts s (windowSnoop k offset data enables s) := by
  cases k with
  | inductionRing => exact inductionSnoop_accounts offset data enables s
  | stationRing st => exact (stationSnoop_carries st offset data enables s).accounts
  | gateWindow | noticeRing | planImage => exact (Quiet.refl s).accounts

theorem snoop_accounts (r : Region) (data : Word) (enables : Enables) (s : State) :
    Accounts s (snoop r data enables s) := by
  unfold snoop
  split
  · exact (commandSnoop_carries data enables s).accounts
  · exact (consumerSnoop_quiet data enables s).accounts
  · exact (chainBasePointer_quiet data enables s).accounts
  · exact (chainLastPointer_quiet data enables s).accounts
  · split
    · exact windowSnoop_accounts _ _ data enables s
    · exact (Quiet.refl s).accounts
  all_goals exact (Quiet.refl s).accounts

theorem snoopOf_accounts (f : Forwarded) (answer : MemAnswer) (s : State) :
    Accounts s (snoopOf f answer s) := by
  unfold snoopOf
  split
  · exact snoop_accounts _ _ _ s
  all_goals exact (Quiet.refl s).accounts

theorem passBack_quiet (master : MasterNo) (op : BusOp) (answer : MemAnswer) (s : State) :
    Quiet s (passBack master op answer s) :=
  .of_port fun h => ⟨h.chainWait, h.planWait, by simp [passBack, State.atMemory]⟩

theorem passBackLate_quiet (master : MasterNo) (op : BusOp) (answer : MemAnswer) (s : State) :
    Quiet s (passBackLate master op answer s) :=
  .of_port fun h => ⟨h.chainWait, h.planWait, by simp [passBackLate, State.atMemory]⟩

theorem passthroughDone_accounts (answer : MemAnswer) (s : State) :
    Accounts s (passthroughDone answer s) := by
  unfold passthroughDone
  split
  · split
    · exact (passBackLate_quiet _ _ _ s).accounts
    · split
      · exact (passBack_quiet _ _ _ s).then_accounts (snoopOf_accounts _ _ _)
      · exact (Quiet.refl s).accounts
  all_goals exact (Quiet.refl s).accounts

/-- But for a reset, every command accounts for the letters. -/
theorem effect_accounts {c : Instr} (assert : c ≠ .resetAssert)
    (release : ∀ cb cm, c ≠ .resetRelease cb cm) (s : State) : Accounts s (effect c s) := by
  cases c with
  | resetAssert => exact absurd rfl assert
  | resetRelease cb cm => exact absurd rfl (release cb cm)
  | encAdvance => exact (encAdvance_carries s).accounts
  | stallExpiry => exact (stallExpiry_carries s).accounts
  | lostExpiry => exact (lostExpiry_carries s).accounts
  | decideExpiry => exact (decideExpiry_carries s).accounts
  | backplaneAccess a => exact (backplaneAccess_carries a s).accounts
  | gateDispatch slot => exact (gateDispatch_carries slot s).accounts
  | arbiterGrant => exact (arbiterGrant_carries s).accounts
  | passthroughDone answer => exact passthroughDone_accounts answer s
  | inductionRingWrite offset data enables => exact inductionRingWrite_accounts offset data enables s
  | stationRingWrite st offset data enables =>
    exact (stationRingWrite_carries st offset data enables s).accounts
  | drainComplete p => exact (drainComplete_carries p s).accounts
  | planReadDone answer => exact (planReadDone_carries answer s).accounts
  | chainDescReadDone answer => exact (chainDescReadDone_quiet answer s).accounts
  | chainRereadDone answer => exact (chainRereadDone_quiet answer s).accounts
  | chainRecordWordDone answer => exact chainRecordWordDone_accounts answer s
  | chainCompletionDone answer => exact (chainCompletionDone_quiet answer s).accounts
  | noticeWordWriteDone answer => exact (noticeWordWriteDone_quiet answer s).accounts
  | badCommand w enables => exact (badCommand_carries w enables s).accounts
  | noticeConsumerIndex data enables => exact (noticeConsumerIndex_quiet data enables s).accounts
  | chainBasePointer data enables => exact (chainBasePointer_quiet data enables s).accounts
  | chainLastPointer data enables => exact (chainLastPointer_quiet data enables s).accounts
  | _ =>
    simp only [effect]
    exact (runCommand_carries _ s).accounts

/-- Settles O59: the account of the letters that every command but a reset gives. -/
theorem lettersConserved : Obligations.LettersConserved := fun _ s _ assert release h =>
  effect_of_exec h ▸ (effect_accounts assert release s).conserved

/-- Settles O60: a letter after the command is one from before it, which it follows, or has a slot that none had; and with distinct slots its tag names one letter. -/
theorem decisionsStand : Obligations.DecisionsStand := by
  intro c s t slots assert release h l hl d decided x hx tag
  rw [← effect_of_exec h] at hx
  rcases (effect_accounts assert release s).follow x hx with ⟨y, hy, same, stands⟩ | new
  · have slot : slotOf y.tag = slotOf l.tag := by rw [← same, tag]
    have inj := List.inj_on_of_nodup_map (f := fun l : Letter => slotOf l.tag)
      (by simpa [State.SlotsDistinct, State.tags, Function.comp_def] using slots)
    obtain rfl : y = l := inj hy hl slot
    exact stands d decided
  · exact absurd (by rw [tag]) (new l hl)

/-- Settles O3: exec has an outcome for every row; a reset keeps the queue by its definition, every other command with its account of the letters. -/
theorem everyCommandCompletes : Obligations.EveryCommandCompletes := by
  refine fun c s => ⟨effect c s, exec_eq c s, ?_⟩
  by_cases assert : c = .resetAssert
  · subst assert
    rfl
  · by_cases release : ∃ cb cm, c = .resetRelease cb cm
    · obtain ⟨cb, cm, rfl⟩ := release
      rfl
    · exact (effect_accounts assert (fun cb cm e => release ⟨cb, cm, e⟩) s).pending

end Sys2Proof.Proofs
end

section
/-! PROOFS. The operations that change letters, pockets, the line or the plan keep what is right (R51, R56, R57, R65, R105, R106, R128). -/

namespace Sys2Proof.Proofs

open Sys2Proof Sys2Proof.Machine Sys2Proof.Laws

/-! ### The parts but for the load -/

/-- A pocket table and a transit list agree on the reservations (R65, R105, R106, R128). -/
structure TableRight (pk : PocketIx → Pocket) (ls : List Letter) : Prop where
  inFlight : ∀ p, (pk p).inFlight = ls.countP (Letter.reserves p)
  atRest   : ∀ p, p ≠ 0 → (pk p).state = .closed ∨ (pk p).state = .disabled → (pk p).inFlight = 0
  draining : ∀ p t, (pk p).state = .draining t → 0 < (pk p).inFlight

theorem pocketsRight_iff (s : State) :
    s.PocketsRight ↔ TableRight s.pocket s.transit.letters :=
  ⟨fun ⟨a, b, c⟩ => ⟨a, b, c⟩, fun ⟨a, b, c⟩ => ⟨a, b, c⟩⟩

/-- The invariant without what speaks of the load. -/
structure PartsRight (s : State) : Prop where
  notice  : NoticeRight s
  port    : PortRight s
  count   : CountRight s
  letters : LettersRight s.transit.letters
  feed    : FeedRight s
  stall   : StallRight s
  table   : TableRight s.pocket s.transit.letters

theorem inv_iff (s : State) : s.Inv ↔ PartsRight s ∧ s.LoadRight := by
  rw [inv_iff_parts, pocketsRight_iff]
  constructor
  · rintro ⟨n, q, c, m, f, w, l, p⟩
    exact ⟨⟨n, q, c, m, f, w, p⟩, l⟩
  · rintro ⟨⟨n, q, c, m, f, w, p⟩, l⟩
    exact ⟨n, q, c, m, f, w, l, p⟩

theorem Quiet.table {s t : State} (h : Quiet s t) (right : TableRight s.pocket s.transit.letters) :
    TableRight t.pocket t.transit.letters :=
  (pocketsRight_iff t).1 (h.pocketsRight ((pocketsRight_iff s).2 right))

theorem Quiet.parts {s t : State} (h : Quiet s t) (right : PartsRight s) : PartsRight t :=
  ⟨h.notice right.notice, h.port right.port, h.count right.count, h.letters ▸ right.letters,
    h.feed right.feed, h.stallRight right.stall, h.table right.table⟩

/-- The notice unit and the ports stay right. -/
structure UnitsKept (s t : State) : Prop where
  notice : NoticeRight s → NoticeRight t
  port   : PortRight s → PortRight t

theorem UnitsKept.trans {s t u : State} (h : UnitsKept s t) (k : UnitsKept t u) : UnitsKept s u :=
  ⟨k.notice ∘ h.notice, k.port ∘ h.port⟩

theorem Quiet.units {s t : State} (h : Quiet s t) : UnitsKept s t := ⟨h.notice, h.port⟩

theorem unitsKept_of_same {s t : State} (notice : t.notice = s.notice := by simp)
    (noticeReq : t.noticeReq = s.noticeReq := by simp)
    (layout : t.plan.layout = s.plan.layout := by simp)
    (chainReq : t.chainReq = s.chainReq := by simp) (planReq : t.planReq = s.planReq := by simp)
    (port : t.port = s.port := by simp) : UnitsKept s t :=
  ⟨fun h => h.congr notice noticeReq layout, fun h => h.congr chainReq planReq port⟩

theorem unitsKept_of_raised {s t : State} {ns : List Notice} (h : s.Raised t ns)
    (chainReq : t.chainReq = s.chainReq := by simp) (planReq : t.planReq = s.planReq := by simp)
    (port : t.port = s.port := by simp) : UnitsKept s t :=
  ⟨noticeRight_of_raised h, fun h => h.congr chainReq planReq port⟩

/-! ### The line (R51 to R56) -/

/-- Parts that an operation on the transport registers and the notice unit leaves. -/
theorem PartsRight.of_transport {s t : State} (h : PartsRight s) (units : UnitsKept s t)
    (feed : FeedRight t) (stall : StallRight t)
    (occupancy : t.transport.occupancy = s.transport.occupancy := by simp)
    (letters : t.transit.letters = s.transit.letters := by simp)
    (retire : t.retire = s.retire := by simp) (pockets : t.pockets = s.pockets := by simp) :
    PartsRight t := by
  have transit : t.transitCount = s.transitCount := congrArg List.length letters
  have sum : t.occupancySum = s.occupancySum := by
    rw [State.occupancySum, State.occupancySum, transit, State.retireCount, State.retireCount, retire]
  refine ⟨units.notice h.notice, units.port h.port, h.count.congr transit.le sum occupancy,
    letters ▸ h.letters, feed, stall, ?_⟩
  rw [letters, show t.pocket = s.pocket from funext (pocket_congr pockets)]
  exact h.table

theorem evalFeedHold_feedRight (s : State) : FeedRight (evalFeedHold s) := by
  have level := State.hold_congr (s := s) (t := evalFeedHold s) (by simp) (by simp) (by simp)
    (by simp)
  rw [FeedRight, level.1, evalFeedHold_transport]

theorem evalFeedHold_units (s : State) : UnitsKept s (evalFeedHold s) :=
  unitsKept_of_raised (evalFeedHold_raised s)

theorem setLine_feedRight (line : LineState) (cause : LineCause) (s : State) :
    FeedRight (setLine line cause s) := evalFeedHold_feedRight _

theorem setLine_units (line : LineState) (cause : LineCause) (s : State) :
    UnitsKept s (setLine line cause s) := unitsKept_of_raised (setLine_raised line cause s)

theorem feedRight_of_transport {s t : State} (h : FeedRight s)
    (feedHold : t.transport.feedHold = s.transport.feedHold)
    (line : t.transport.line = s.transport.line)
    (occupancy : t.transport.occupancy = s.transport.occupancy)
    (layout : t.plan.layout = s.plan.layout := by simp)
    (pockets : t.pockets = s.pockets := by simp) : FeedRight t :=
  h.congr feedHold line occupancy layout (by rw [pocket_congr pockets]) (by rw [pocket_congr pockets])

theorem restartStall_stallRight (s : State) : StallRight (restartStall s) := by
  have watched : (restartStall s).stallWatched = s.stallWatched := rfl
  rw [StallRight, watched, restartStall_transport]
  cases s.stallWatched <;> rfl

theorem restartStall_feedRight {s : State} (h : FeedRight s) : FeedRight (restartStall s) :=
  feedRight_of_transport h rfl rfl rfl

/-- A running monitor means a RUNNING line with a letter in transit. -/
theorem running_of_stall {s : State} (right : StallRight s) (h : s.transport.stall.isSome = true) :
    s.transport.line = .running ∧ s.transit.letters ≠ [] := by
  rw [right, State.stallWatched, Bool.and_eq_true, Bool.not_eq_true', beq_iff_eq,
    List.isEmpty_eq_false_iff] at h
  exact h

theorem stallExpired_parts {s : State} (h : PartsRight s) : PartsRight (stallExpired s) := by
  refine h.of_transport (UnitsKept.trans unitsKept_of_same (setLine_units _ _ _)) (setLine_feedRight _ _ _) ?_
    (by simp [stallExpired])
  simp [StallRight, stallExpired, State.stallWatched]

theorem stallExpired_inv {s : State} (h : s.Inv) (running : s.transport.stall.isSome = true) :
    (stallExpired s).Inv := by
  obtain ⟨parts, load⟩ := (inv_iff s).1 h
  refine (inv_iff _).2 ⟨stallExpired_parts parts, ?_⟩
  obtain ⟨line, -⟩ := running_of_stall parts.stall running
  exact loadRight_congr load (by simp) (by simp) (by simp) (by simp [line])

theorem stopLine_parts {s : State} (h : PartsRight s) : PartsRight (stopLine s) := by
  refine h.of_transport (UnitsKept.trans unitsKept_of_same (setLine_units _ _ _)) (setLine_feedRight _ _ _) ?_
    (by simp [stopLine])
  simp [StallRight, stopLine, State.stallWatched]

/-- The line set to RUNNING with the monitor restarted: what START and an edge on a STALLED line do. -/
theorem runLine_parts {s : State} (h : PartsRight s) (cause : LineCause) :
    PartsRight (restartStall (setLine .running cause s)) :=
  h.of_transport ((setLine_units .running cause s).trans unitsKept_of_same)
    (restartStall_feedRight (setLine_feedRight _ _ _)) (restartStall_stallRight _)

theorem refclkEdge_inv {s : State} (h : s.Inv) : (refclkEdge s).Inv := by
  unfold refclkEdge
  cases running : s.transport.stall with
  | none => exact h
  | some n =>
    simp only
    split
    · exact stallExpired_inv h (by simp [running])
    · exact Quiet.inv (.of_same (stall := by simp [running])) h

theorem stallExpiry_inv {s : State} (h : s.Inv) : (stallExpiry s).Inv := by
  unfold stallExpiry
  split
  case isTrue running => exact stallExpired_inv h running
  case isFalse => exact h

/-- A command that is taken only in IDLE keeps the invariant where its own effect does, with no load running. -/
theorem whenIdle_inv {c : Command} {own : State → State} {s : State} (h : s.Inv)
    (taken : s.plan.load = none → (own s).Inv) : (whenIdle c own s).Inv := by
  unfold whenIdle
  split
  · exact h
  · split
    · exact (refuse_quiet _ _ s).inv h
    case isFalse _ idle =>
      refine taken ?_
      simpa [h.load.executing] using idle

theorem commandStart_inv {s : State} (h : s.Inv) : (commandStart s).Inv := by
  refine whenIdle_inv h fun unloaded => ?_
  split
  case h_3 =>
    obtain ⟨parts, load⟩ := (inv_iff s).1 h
    refine (ackTaken_quiet _ _ _).inv ((inv_iff _).2 ⟨runLine_parts parts _, ?_⟩)
    exact ⟨by simpa using load.loading, by simpa using load.executing, by simpa using load.awaiting,
      by simp [unloaded]⟩
  all_goals exact (refuse_quiet _ _ s).inv h

theorem commandStop_inv {s : State} (h : s.Inv) : (commandStop s).Inv := by
  obtain ⟨parts, load⟩ := (inv_iff s).1 h
  have stopped : (ackTaken .stop 0#32 (stopLine s)).Inv := by
    refine (ackTaken_quiet _ _ _).inv ((inv_iff _).2 ⟨stopLine_parts parts, ?_⟩)
    exact loadRight_congr load (by simp) (by simp) (by simp) (by simp [stopLine])
  refine whenIdle_inv h fun _ => ?_
  split
  case h_3 => exact (ackTaken_quiet _ _ s).inv h
  all_goals exact stopped

theorem countAdvance_quiet (s : State) : Quiet s (countAdvance s) :=
  .of_same (line := rfl) (stall := rfl) (feedHold := rfl) (occupancy := rfl) (letters := rfl)

theorem restartStall_quiet {s : State} (h : StallRight s) : Quiet s (restartStall s) :=
  .of_same (stall := by rw [restartStall_stallRight s, h]; rfl)

/-- Steps 1 to 4 of an advance. -/
theorem countedAdvance_inv {s : State} (h : s.Inv) :
    (restartStall (endStall (countAdvance s))).Inv := by
  have counted := (countAdvance_quiet s).inv h
  obtain ⟨parts, load⟩ := (inv_iff _).1 counted
  unfold endStall
  split
  case isTrue stalled =>
    refine (inv_iff _).2 ⟨runLine_parts parts _, ?_⟩
    exact loadRight_congr load (by simp) (by simp) (by simp) (by simp [stalled])
  case isFalse => exact (restartStall_quiet parts.stall).inv counted

/-! ### Departures and drains (R118, R132) -/

theorem closeBatch_units (p : PocketIx) (x : PocketState) (s : State) :
    UnitsKept s (closeBatch p x s) :=
  UnitsKept.trans unitsKept_of_same (batchEnd_quiet _ _).units

theorem drainIfEmpty_units (p : PocketIx) (s : State) : UnitsKept s (drainIfEmpty p s) := by
  unfold drainIfEmpty
  split
  · split
    · exact closeBatch_units _ _ s
    · exact (Quiet.refl s).units
  all_goals exact (Quiet.refl s).units

theorem retireRecord_units (d : Disposition) (s : State) : UnitsKept s (retireRecord d s) :=
  UnitsKept.trans unitsKept_of_same (chainPump_quiet _).units

theorem stopStallIfEmpty_units (s : State) : UnitsKept s (stopStallIfEmpty s) := unitsKept_of_same

theorem depart_units (o : DispositionOutcome) (l : Letter) (s : State) :
    UnitsKept s (depart o l s) := by
  have released (u : State) : UnitsKept u (releaseLetter l u) := by
    unfold releaseLetter releaseReservation
    split
    · exact UnitsKept.trans unitsKept_of_same (drainIfEmpty_units _ _)
    · exact (Quiet.refl u).units
  exact ((retireRecord_units _ s).trans (released _)).trans (stopStallIfEmpty_units _)

/-- A drain at in-flight count 0 gives the pocket its drain target, and does nothing to any other (R132). -/
theorem drainIfEmpty_pocket_eq (p q : PocketIx) (s : State) : (drainIfEmpty p s).pocket q =
    if q = p ∧ (s.pocket q).inFlight = 0 then
      { s.pocket q with state := (s.pocket q).state.drained }
    else s.pocket q := by
  have closed (x : PocketState) : (closeBatch p x s).pocket q =
      if q = p then { s.pocket q with state := x } else s.pocket q := by
    rw [pocket_congr (t := s.setPocket p { s.pocket p with state := x }) (by simp), setPocket_pocket]
    by_cases same : q = p
    · simp [same]
    · simp [same, Ne.symm same]
  unfold drainIfEmpty
  by_cases same : q = p
  · subst same
    cases state : (s.pocket q).state with
    | draining target =>
      by_cases empty : (s.pocket q).inFlight = 0
      · cases target <;> simp [empty, closed, PocketState.drained, DrainTarget.state]
      · simp [empty]
    | disabled | opened | closed =>
      simp only [PocketState.drained, ← state]
      split <;> rfl
  · simp only [same, false_and, if_false]
    split
    · split
      · rw [closed, if_neg same]
      · rfl
    all_goals rfl

theorem releaseReservation_pocket_eq (p q : PocketIx) (s : State) :
    (releaseReservation p s).pocket q =
      if q = p then (s.pocket q).released else s.pocket q := by
  unfold releaseReservation
  rw [drainIfEmpty_pocket_eq, setPocket_pocket]
  by_cases same : q = p
  · subst same
    by_cases last : (s.pocket q).inFlight ≤ 1
    · simp [Pocket.released, last, Nat.sub_eq_zero_of_le last]
    · simp [Pocket.released, last, Nat.sub_ne_zero_of_lt (Nat.lt_of_not_le last)]
  · simp [same, Ne.symm same]

/-- A departure releases the letter's reservation, with the drain that this completes (R118). -/
theorem depart_pocket_eq (o : DispositionOutcome) (l : Letter) (q : PocketIx) (s : State) :
    (depart o l s).pocket q =
      if l.reserves q = true then (s.pocket q).released else s.pocket q := by
  have retired : (retireRecord (s.disposition o l) s).pocket q = s.pocket q :=
    pocket_congr (by simp) q
  rw [depart, pocket_congr (t := releaseLetter l (retireRecord (s.disposition o l) s)) (by simp)]
  unfold releaseLetter Letter.decision Letter.reserves
  cases l.state with
  | decided d =>
    simp only [releaseReservation_pocket_eq, retired, beq_iff_eq, eq_comm (a := q)]
  | collecting | awaitPlan => simp [retired]

/-- The table after a departure agrees with the list without the letter. -/
theorem TableRight.depart {pk pk' : PocketIx → Pocket} {before after : List Letter} {l : Letter}
    (h : TableRight pk (before ++ l :: after))
    (table : ∀ q, pk' q = if l.reserves q = true then (pk q).released else pk q) :
    TableRight pk' (before ++ after) := by
  have count (q : PocketIx) : (pk q).inFlight =
      (before ++ after).countP (Letter.reserves q) + (if l.reserves q = true then 1 else 0) := by
    rw [h.inFlight, List.countP_append, List.countP_append, List.countP_cons]
    omega
  refine ⟨fun q => ?_, fun q zero rest => ?_, fun q t draining => ?_⟩
  · rw [table]
    have := count q
    split
    case isTrue reserves =>
      rw [if_pos reserves] at this
      simp [Pocket.released, this]
    case isFalse reserves =>
      rw [if_neg reserves] at this
      exact this
  · have old := h.atRest q zero
    rw [table] at rest ⊢
    split at rest
    case isTrue reserves =>
      rw [if_pos reserves]
      simp only [Pocket.released] at rest ⊢
      split at rest
      · omega
      · rw [old rest]
    case isFalse reserves =>
      rw [if_neg reserves]
      exact old rest
  · have old := h.draining q t
    rw [table] at draining ⊢
    split at draining
    case isTrue reserves =>
      rw [if_pos reserves]
      simp only [Pocket.released] at draining ⊢
      split at draining
      · cases state : (pk q).state with
        | draining target => cases target <;> simp [PocketState.drained, state] at draining
        | disabled | opened | closed => simp [PocketState.drained, state] at draining
      · omega
    case isFalse reserves =>
      rw [if_neg reserves]
      exact old draining

theorem TableRight.congr {pk pk' : PocketIx → Pocket} {ls : List Letter} (h : TableRight pk ls)
    (state : ∀ p, (pk' p).state = (pk p).state) (inFlight : ∀ p, (pk' p).inFlight = (pk p).inFlight) :
    TableRight pk' ls :=
  ⟨fun p => by rw [inFlight, h.inFlight], fun p zero => by rw [state, inFlight]; exact h.atRest p zero,
    fun p t => by rw [state, inFlight]; exact h.draining p t⟩

theorem LettersRight.sublist {ls xs : List Letter} (h : LettersRight ls) (sub : xs.Sublist ls) :
    LettersRight xs :=
  ⟨fun l hl => h.reads l (sub.subset hl), h.slots.sublist (sub.map _)⟩

/-- A letter leaves the list and departs, whatever has landed in between: every part but FEED_HOLD, which the landing evaluates, is right again. -/
theorem depart_parts {s u : State} {before after : List Letter} {l : Letter}
    (o : DispositionOutcome) (h : PartsRight s)
    (letters : s.transit.letters = before ++ l :: after)
    (removed : u.transit.letters = before ++ after) (units : UnitsKept s u) (feed : FeedRight u)
    (state : ∀ p, (u.pocket p).state = (s.pocket p).state)
    (inFlight : ∀ p, (u.pocket p).inFlight = (s.pocket p).inFlight)
    (retire : u.retire = s.retire) (occupancy : u.transport.occupancy = s.transport.occupancy)
    (line : u.transport.line = s.transport.line)
    (stall : u.transport.stall = s.transport.stall) : PartsRight (depart o l u) := by
  have left : (depart o l u).transit.letters = before ++ after := by simp [removed]
  have sub : (before ++ after).Sublist s.transit.letters := by
    rw [letters]
    exact (List.Sublist.refl before).append (List.sublist_cons_self l after)
  have retired : (depart o l u).retireCount = s.retireCount + 1 := by
    have := congrArg List.length (depart_records o l u)
    simpa [State.records, State.retireCount, retire] using this
  have count : s.transitCount = (before ++ after).length + 1 := by
    rw [State.transitCount, letters, List.length_append, List.length_append, List.length_cons]
    omega
  have transit : (depart o l u).transitCount = (before ++ after).length :=
    congrArg List.length left
  refine ⟨(depart_units o l u).notice (units.notice h.notice),
    (depart_units o l u).port (units.port h.port), h.count.congr (by omega) ?_ (by simp [occupancy]),
    left ▸ h.letters.sublist sub, ?_, ?_, ?_⟩
  · rw [State.occupancySum, State.occupancySum, transit, retired, count]
    omega
  · refine feed.congr (by simp) (by simp) (by simp) (by simp) ?_ ?_ <;>
      rw [(depart_pocket o l 0 u).1]
  · have old := h.stall
    rw [StallRight, State.stallWatched, letters, show (before ++ l :: after).isEmpty = false by simp]
      at old
    rw [StallRight, State.stallWatched, left, depart_transport, removed]
    cases rest : before ++ after with
    | nil => simp
    | cons x xs => simpa [line, stall] using old
  · rw [left]
    refine TableRight.depart (pk := u.pocket) (l := l) ?_ fun q => depart_pocket_eq o l q u
    rw [← letters]
    exact h.table.congr state inFlight

/-- A departure without a landing. -/
theorem departed_parts {s : State} {rest : List Letter} {l : Letter} (o : DispositionOutcome)
    (h : PartsRight s) (letters : s.transit.letters = l :: rest) :
    PartsRight (depart o l (s.setLetters rest)) := by
  have same (p : PocketIx) : (s.setLetters rest).pocket p = s.pocket p := pocket_congr (by simp) p
  exact depart_parts (before := []) o h letters rfl unitsKept_of_same
    (feedRight_of_transport h.feed rfl rfl rfl) (fun p => by rw [same]) (fun p => by rw [same]) rfl
    rfl rfl rfl

/-- Letters that leave, or are changed in place without coming to wait for a plan, keep the load right; the line may not leave STOPPED meanwhile. -/
theorem loadRight_of_carries {s t : State} (h : s.LoadRight) (carries : Carries s t)
    (awaiting : s.plan.load = none → (∀ l ∈ s.transit.letters, l.state ≠ .awaitPlan) →
      ∀ x ∈ t.transit.letters, x.state ≠ .awaitPlan)
    (plan : t.plan = s.plan := by simp)
    (executing : t.cmd.executing = s.cmd.executing := by simp)
    (line : t.transport.line = s.transport.line := by simp) : t.LoadRight := by
  refine ⟨by rw [plan]; exact h.loading, by rw [plan, executing]; exact h.executing, ?_, ?_⟩
  · rw [plan]
    exact fun unloaded => awaiting unloaded (h.awaiting unloaded)
  · rw [plan, line]
    intro ld running changed
    obtain ⟨stopped, empty⟩ := h.locked ld running changed
    refine ⟨stopped, List.eq_nil_iff_forall_not_mem.2 fun x hx => ?_⟩
    obtain ⟨l, hl, -⟩ := carries.follow x hx
    simp [empty] at hl

theorem departed_inv {s : State} {rest : List Letter} {l : Letter} (o : DispositionOutcome)
    (h : s.Inv) (letters : s.transit.letters = l :: rest) :
    (depart o l (s.setLetters rest)).Inv := by
  obtain ⟨parts, load⟩ := (inv_iff s).1 h
  refine (inv_iff _).2 ⟨departed_parts o parts letters, loadRight_of_carries load
    (depart_carries (u := s.setLetters rest) (before := []) o letters rfl rfl rfl) ?_⟩
  intro _ none x hx
  refine none x ?_
  rw [letters]
  exact List.mem_cons_of_mem l (by simpa using hx)

theorem expireLost_inv {s : State} {rest : List Letter} {l : Letter} (h : s.Inv)
    (letters : s.transit.letters = l :: rest) : (expireLost l rest s).Inv :=
  (raise_quiet _ _).inv (departed_inv .lost h letters)

theorem takeLost_inv (ls : List Letter) {s : State} (h : s.Inv) (letters : s.transit.letters = ls) :
    (takeLost ls s).Inv := by
  induction ls generalizing s with
  | nil => exact h
  | cons l rest ih =>
    unfold takeLost
    split
    · exact ih (expireLost_inv h letters) (by simp [expireLost])
    · exact h

theorem purgeLetters_inv (ls : List Letter) {s : State} (h : s.Inv)
    (letters : s.transit.letters = ls) : (purgeLetters ls s).Inv := by
  induction ls generalizing s with
  | nil => exact h
  | cons l rest ih => exact ih (departed_inv .purged h letters) (by simp)

theorem commandPurge_inv {s : State} (h : s.Inv) : (commandPurge s).Inv :=
  whenIdle_inv h fun _ => (ackTaken_quiet _ _ _).inv (purgeLetters_inv _ h rfl)

theorem lostExpiry_inv {s : State} (h : s.Inv) : (lostExpiry s).Inv := by
  unfold lostExpiry
  split
  · exact h
  · cases letters : s.transit.letters with
    | nil => exact h
    | cons l rest =>
      simp only
      split
      · exact expireLost_inv h letters
      · exact h

/-! ### Landings and dispatches (R112 to R115) -/

theorem raiseFill_pocket_eq (p q : PocketIx) (tag : Word) (s : State) :
    (raiseFill p tag s).pocket q = if q = p then (s.pocket q).landed else s.pocket q := by
  unfold raiseFill
  split
  case isTrue room =>
    have filled : ∀ t : State, t.pockets =
        (s.setPocket p { s.pocket p with fill := (s.pocket p).fill + 1 }).pockets →
        t.pocket q = if q = p then (s.pocket q).landed else s.pocket q := by
      intro t pockets
      rw [pocket_congr pockets, setPocket_pocket]
      by_cases same : q = p
      · subst same
        simp only [if_true, Pocket.landed, Config.maxFill] at room ⊢
        simp [room]
      · simp [same, Ne.symm same]
    simp only
    split
    · exact filled _ (by simp)
    · exact filled _ (by simp)
  case isFalse full =>
    by_cases same : q = p
    · subst same
      simp only [if_true, Pocket.landed, Config.maxFill] at full ⊢
      simp [full]
    · simp [same]

theorem raiseFill_units (p : PocketIx) (tag : Word) (s : State) :
    UnitsKept s (raiseFill p tag s) := by
  unfold raiseFill
  simp only
  split
  · have filled : UnitsKept s (fillNotices p tag
        (s.setPocket p { s.pocket p with fill := (s.pocket p).fill + 1 })) :=
      UnitsKept.trans unitsKept_of_same (fillNotices_quiet _ _ _).units
    split
    · exact filled.trans (evalFeedHold_units _)
    · exact filled
  · exact (Quiet.refl s).units

theorem raiseFill_feedRight {s : State} (h : FeedRight s) (p : PocketIx) (tag : Word) :
    FeedRight (raiseFill p tag s) := by
  by_cases zero : p = 0
  · subst zero
    unfold raiseFill
    simp only [if_true]
    split
    · exact evalFeedHold_feedRight _
    · exact h
  · have pocket : (raiseFill p tag s).pocket 0 = s.pocket 0 := by
      rw [raiseFill_pocket_eq, if_neg (Ne.symm zero)]
    have transport : (raiseFill p tag s).transport = s.transport := by
      unfold raiseFill
      simp only [zero, if_false]
      split <;> simp
    exact h.congr (by rw [transport]) (by rw [transport]) (by rw [transport]) (by simp)
      (by rw [pocket]) (by rw [pocket])

/-- What a landing leaves of the transport registers: all but FEED_HOLD. -/
theorem raiseFill_transport (p : PocketIx) (tag : Word) (s : State) :
    (raiseFill p tag s).transport =
      { s.transport with feedHold := (raiseFill p tag s).transport.feedHold } := by
  unfold raiseFill
  simp only
  split
  · split <;> simp
  · rfl

theorem dispatchLetter_inv {s : State} {slot : BitVec 8} {l : Letter} (h : s.Inv)
    (found : s.letterBySlot slot = some l) : (dispatchLetter slot l s).Inv := by
  obtain ⟨parts, load⟩ := (inv_iff s).1 h
  obtain ⟨before, after, letters, here, first⟩ := (letterBySlot_eq_some_iff s slot l).1 found
  have removed := removeLetter_letters letters here first
  have departed (p : PocketIx) (tag : Word) (o : DispositionOutcome) :
      (depart o l (raiseFill p tag (removeLetter slot s))).Inv := by
    have pocket (q : PocketIx) : (removeLetter slot s).pocket q = s.pocket q :=
      pocket_congr (by simp) q
    have transport := raiseFill_transport p tag (removeLetter slot s)
    refine (inv_iff _).2 ⟨depart_parts o parts letters (by simp [removed])
      (UnitsKept.trans unitsKept_of_same (raiseFill_units p tag (removeLetter slot s)))
      (raiseFill_feedRight (feedRight_of_transport parts.feed (by simp) (by simp) (by simp)) _ _)
      (fun q => ?_) (fun q => ?_) (by simp) (by rw [transport]; simp) (by rw [transport]; simp)
      (by rw [transport]; simp), ?_⟩
    · rw [raiseFill_pocket_eq, pocket]
      split <;> rfl
    · rw [raiseFill_pocket_eq, pocket]
      split <;> rfl
    · have left : (depart o l (raiseFill p tag (removeLetter slot s))).transit.letters =
          before ++ after := by simp [removed]
      refine loadRight_of_carries load (depart_carries o letters (by simp [removed]) (by
        simp [State.records]) (by simp)) (fun _ none x hx => none x ?_) (by simp) (by simp) ?_
      · rw [left] at hx
        rw [letters]
        exact List.mem_append.2 ((List.mem_append.1 hx).imp_right (List.mem_cons_of_mem _))
      · rw [depart_transport, transport]
        simp
  simp only [dispatchLetter]
  split <;> exact departed _ _ _

end Sys2Proof.Proofs
end

section
/-! PROOFS. Resolutions, reads, entries, pocket commands and the plan loader keep the invariant; so does every step. -/

namespace Sys2Proof.Proofs

open Sys2Proof Sys2Proof.Machine Sys2Proof.Laws

/-! ### Resolutions (R96, R103 to R105) -/

/-- A decision goes to an available pocket, or to pocket 0 (R103, R104). -/
theorem decideLetter_available (plan : Plan) (pk : Pockets) (l : Letter) (sum : Summary) :
    pocketAvailable pk (decideLetter plan pk l sum).final = true := by
  have zero : pocketAvailable pk 0 = true := by simp [pocketAvailable]
  have settled (p : PocketIx) (cause : Cause) (i : Option Nat) :
      pocketAvailable pk (settle pk p cause i).final = true := by
    unfold settle
    split
    · assumption
    · cases partner : availablePartner pk p with
      | none => exact zero
      | some q =>
        unfold availablePartner at partner
        split at partner
        · split at partner
          · cases partner
            assumption
          · cases partner
        · cases partner
  unfold decideLetter
  split
  · exact zero
  · split
    · exact zero
    · split
      · exact zero
      · split
        · exact zero
        · exact settled _ _ _

/-- An available pocket other than pocket 0 is OPEN (R103). -/
theorem state_of_available {pk : Pockets} {p : PocketIx} (h : pocketAvailable pk p = true)
    (zero : p ≠ 0) : pk[p].state = .opened := by
  unfold pocketAvailable at h
  simp only [zero, decide_false, Bool.false_or, Bool.and_eq_true, decide_eq_true_eq] at h
  exact h.1

theorem reservePocket_getElem (pk : Pockets) (p q : PocketIx) :
    (reservePocket pk p)[q] =
      if q = p then { pk[q] with inFlight := pk[q].inFlight + 1 } else pk[q] := by
  unfold reservePocket
  simp only [Fin.getElem_fin, Vector.getElem_set, Fin.ext_iff, eq_comm (a := q.val)]
  split
  case isTrue same => simp [same]
  case isFalse => rfl

/-- What a resolution can do: the letter waits for its plan and the table stands, or it is DECIDED to an available pocket, which is reserved (R96, R105). -/
theorem resolveLetter_cases (plan : Plan) (pk : Pockets) (l : Letter) :
    (plan.state = .loading ∧ resolveLetter plan pk l = (pk, { l with state := .awaitPlan })) ∨
    (plan.state ≠ .loading ∧ ∃ d sum, pocketAvailable pk d.final = true ∧
      resolveLetter plan pk l = (reservePocket pk d.final, l.decidedAs d sum)) := by
  have decided : ∃ d sum, pocketAvailable pk d.final = true ∧
      (reservePocket pk (decideLetter plan pk l (summarize l.reads)).final,
        l.decidedAs (decideLetter plan pk l (summarize l.reads)) (summarize l.reads)) =
      (reservePocket pk d.final, l.decidedAs d sum) :=
    ⟨_, _, decideLetter_available plan pk l _, rfl⟩
  unfold resolveLetter
  cases plan.state with
  | loading => exact .inl ⟨rfl, rfl⟩
  | invalid | valid => exact .inr ⟨by simp, decided⟩

theorem reserves_of_undecided {l : Letter} (undecided : ∀ d, l.state ≠ .decided d) (p : PocketIx) :
    l.reserves p = false := by
  unfold Letter.reserves
  cases state : l.state with
  | decided d => exact absurd state (undecided d)
  | collecting | awaitPlan => rfl

/-- The table with one letter of the list resolved. -/
theorem TableRight.resolve {pk : Pockets} {before after : List Letter} {l : Letter}
    (h : TableRight (fun p => pk[p]) (before ++ l :: after))
    (undecided : ∀ d, l.state ≠ .decided d) (plan : Plan) :
    TableRight (fun p => (resolveLetter plan pk l).1[p])
      (before ++ (resolveLetter plan pk l).2 :: after) := by
  have count (p : PocketIx) (x : Letter) :
      (before ++ x :: after).countP (Letter.reserves p) =
        (before ++ l :: after).countP (Letter.reserves p) + (x.reserves p).toNat := by
    simp only [List.countP_append, List.countP_cons, reserves_of_undecided undecided p]
    cases x.reserves p <;> simp
    omega
  rcases resolveLetter_cases plan pk l with ⟨-, resolved⟩ | ⟨-, d, sum, available, resolved⟩
  · rw [resolved]
    refine ⟨fun p => ?_, h.atRest, h.draining⟩
    rw [count, reserves_of_undecided (by simp), h.inFlight]
    rfl
  · rw [resolved]
    have reserves (p : PocketIx) : (l.decidedAs d sum).reserves p = decide (d.final = p) := rfl
    refine ⟨fun p => ?_, fun p zero rest => ?_, fun p t draining => ?_⟩
    · rw [reservePocket_getElem, count, reserves, ← h.inFlight p]
      by_cases same : p = d.final
      · simp [same]
      · simp [same, Ne.symm same]
    · rw [reservePocket_getElem] at rest ⊢
      split at rest
      case isTrue same =>
        subst same
        rw [state_of_available available zero] at rest
        simp at rest
      case isFalse other =>
        rw [if_neg other]
        exact h.atRest p zero rest
    · rw [reservePocket_getElem] at draining ⊢
      split at draining
      case isTrue same => simp [same]
      case isFalse other =>
        rw [if_neg other]
        exact h.draining p t draining

theorem PassesOver.undecided {ready : Letter → Bool} (h : PassesOver ready) {l : Letter}
    (is : ready l = true) (d : Decision) : l.state ≠ .decided d := fun decided => by
  simp [h l d decided] at is

theorem TableRight.resolveList {ready : Letter → Bool} (passes : PassesOver ready) (plan : Plan)
    {pk : Pockets} {before ls : List Letter} (h : TableRight (fun p => pk[p]) (before ++ ls)) :
    TableRight (fun p => (resolveList plan ready pk ls).1[p])
      (before ++ (resolveList plan ready pk ls).2) := by
  induction ls generalizing pk before with
  | nil => exact h
  | cons l ls ih =>
    unfold Machine.resolveList
    split
    case isTrue is =>
      have next := h.resolve (passes.undecided is) plan
      simpa using ih (before := before ++ [(resolveLetter plan pk l).2]) (by simpa using next)
    case isFalse => simpa using ih (before := before ++ [l]) (by simpa using h)

theorem TableRight.resolveFirst {ready : Letter → Bool} (passes : PassesOver ready) (plan : Plan)
    {pk : Pockets} {before ls : List Letter} (h : TableRight (fun p => pk[p]) (before ++ ls)) :
    TableRight (fun p => (resolveFirst plan ready pk ls).1[p])
      (before ++ (resolveFirst plan ready pk ls).2) := by
  induction ls generalizing before with
  | nil => exact h
  | cons l ls ih =>
    unfold Machine.resolveFirst
    split
    case isTrue is => exact h.resolve (passes.undecided is) plan
    case isFalse => simpa using ih (before := before ++ [l]) (by simpa using h)

theorem resolveLetter_pocket (plan : Plan) (pk : Pockets) (l : Letter) (p : PocketIx) :
    ∃ n, (resolveLetter plan pk l).1[p] = { pk[p] with inFlight := n } := by
  rcases resolveLetter_cases plan pk l with ⟨-, resolved⟩ | ⟨-, d, sum, -, resolved⟩
  · exact ⟨_, by rw [resolved]⟩
  · rw [resolved]
    simp only [reservePocket_getElem]
    split
    · exact ⟨_, rfl⟩
    · exact ⟨_, rfl⟩

/-- Resolutions change nothing of a pocket but its in-flight count (R105). -/
theorem resolveList_pocket (plan : Plan) (ready : Letter → Bool) (pk : Pockets) (ls : List Letter)
    (p : PocketIx) : ∃ n, (resolveList plan ready pk ls).1[p] = { pk[p] with inFlight := n } := by
  induction ls generalizing pk with
  | nil => exact ⟨_, rfl⟩
  | cons l ls ih =>
    unfold resolveList
    split
    · obtain ⟨n, first⟩ := resolveLetter_pocket plan pk l p
      obtain ⟨m, rest⟩ := ih (resolveLetter plan pk l).1
      exact ⟨m, by rw [rest, first]⟩
    · exact ih pk

theorem resolveFirst_pocket (plan : Plan) (ready : Letter → Bool) (pk : Pockets) (ls : List Letter)
    (p : PocketIx) : ∃ n, (resolveFirst plan ready pk ls).1[p] = { pk[p] with inFlight := n } := by
  induction ls with
  | nil => exact ⟨_, rfl⟩
  | cons l ls ih =>
    unfold resolveFirst
    split
    · exact resolveLetter_pocket plan pk l p
    · exact ih

/-- A letter after the resolutions is one that was not ready, or a ready one resolved. -/
theorem mem_resolveList {plan : Plan} {ready : Letter → Bool} {pk : Pockets} {ls : List Letter}
    {x : Letter} (h : x ∈ (resolveList plan ready pk ls).2) :
    (x ∈ ls ∧ ready x = false) ∨ ∃ pk' l, x = (resolveLetter plan pk' l).2 := by
  induction ls generalizing pk with
  | nil => simp [resolveList] at h
  | cons l ls ih =>
    have later {pk : Pockets} (h : x ∈ (resolveList plan ready pk ls).2) :
        (x ∈ l :: ls ∧ ready x = false) ∨ ∃ pk' l, x = (resolveLetter plan pk' l).2 :=
      (ih h).imp_left fun ⟨old, not⟩ => ⟨List.mem_cons_of_mem l old, not⟩
    unfold resolveList at h
    split at h
    · rcases List.mem_cons.1 h with rfl | h
      · exact .inr ⟨_, _, rfl⟩
      · exact later h
    case isFalse not =>
      rcases List.mem_cons.1 h with rfl | h
      · exact .inl ⟨List.mem_cons_self, Bool.eq_false_iff.2 not⟩
      · exact later h

theorem mem_resolveFirst {plan : Plan} {ready : Letter → Bool} {pk : Pockets} {ls : List Letter}
    {x : Letter} (h : x ∈ (resolveFirst plan ready pk ls).2) :
    x ∈ ls ∨ ∃ pk' l, x = (resolveLetter plan pk' l).2 := by
  induction ls with
  | nil => simp [resolveFirst] at h
  | cons l ls ih =>
    unfold resolveFirst at h
    split at h
    · rcases List.mem_cons.1 h with rfl | h
      · exact .inr ⟨_, _, rfl⟩
      · exact .inl (List.mem_cons_of_mem l h)
    · rcases List.mem_cons.1 h with rfl | h
      · exact .inl List.mem_cons_self
      · exact (ih h).imp_left (List.mem_cons_of_mem l)

theorem resolveLetter_not_awaiting {plan : Plan} (h : plan.state ≠ .loading) (pk : Pockets)
    (l : Letter) : (resolveLetter plan pk l).2.state ≠ .awaitPlan := by
  rcases resolveLetter_cases plan pk l with ⟨loading, -⟩ | ⟨-, d, sum, -, resolved⟩
  · exact absurd loading h
  · simp [resolved, Letter.decidedAs]

/-- A change of letters and in-flight counts that keeps tags and the bound of the read sets. -/
theorem PartsRight.of_letters {s t : State} (h : PartsRight s)
    (tags : t.transit.letters.map (·.tag) = s.transit.letters.map (·.tag))
    (reads : ∀ l ∈ t.transit.letters, l.reads.length ≤ Config.maxReads)
    (table : TableRight t.pocket t.transit.letters)
    (capacity : (t.pocket 0).capacity = (s.pocket 0).capacity)
    (fill : (t.pocket 0).fill = (s.pocket 0).fill) (units : UnitsKept s t)
    (transport : t.transport = s.transport) (retire : t.retire = s.retire)
    (layout : t.plan.layout = s.plan.layout) : PartsRight t := by
  have length : t.transitCount = s.transitCount := by
    simpa [State.transitCount] using congrArg List.length tags
  have slots : t.transit.letters.map (fun l => slotOf l.tag) =
      s.transit.letters.map (fun l => slotOf l.tag) := by
    simpa [Function.comp_def] using congrArg (List.map slotOf) tags
  have sum : t.occupancySum = s.occupancySum := by
    rw [State.occupancySum, State.occupancySum, length, State.retireCount, State.retireCount, retire]
  refine ⟨units.notice h.notice, units.port h.port, h.count.congr length.le sum (by rw [transport]),
    ⟨reads, slots ▸ h.letters.slots⟩,
    h.feed.congr (by rw [transport]) (by rw [transport]) (by rw [transport]) layout capacity fill,
    h.stall.congr (by rw [transport]) (by rw [transport]) ?_, table⟩
  rw [← List.length_eq_zero_iff, ← List.length_eq_zero_iff]
  exact (congrArg (· = 0) length).to_iff

theorem Letter.lasting_reads : Letter.Lasting (·.reads) := fun plan pk l => by
  simpa using congrArg (fun x => x.2.2.1) (Letter.lasting_rest plan pk l)

theorem reads_of_map {ls xs : List Letter} (map : xs.map (·.reads) = ls.map (·.reads))
    (h : ∀ l ∈ ls, l.reads.length ≤ Config.maxReads) :
    ∀ x ∈ xs, x.reads.length ≤ Config.maxReads := by
  intro x hx
  obtain ⟨l, hl, same⟩ := List.mem_map.1 (map ▸ List.mem_map_of_mem (f := fun l : Letter => l.reads) hx)
  exact same ▸ h l hl

theorem resolveWhere_parts {ready : Letter → Bool} (passes : PassesOver ready) {s : State}
    (h : PartsRight s) : PartsRight (s.resolveWhere ready) := by
  obtain ⟨n, pocket⟩ := resolveList_pocket s.plan ready s.pockets s.transit.letters 0
  refine h.of_letters (resolveList_tags _ _ _ _)
    (reads_of_map (resolveList_map Letter.lasting_reads _ _ _ _) h.letters.reads)
    (TableRight.resolveList (before := []) passes s.plan h.table)
    ((congrArg Pocket.capacity pocket).trans rfl) ((congrArg Pocket.fill pocket).trans rfl)
    unitsKept_of_same rfl rfl rfl

theorem resolveOne_parts {ready : Letter → Bool} (passes : PassesOver ready) {s : State}
    (h : PartsRight s) : PartsRight (s.resolveOne ready) := by
  obtain ⟨n, pocket⟩ := resolveFirst_pocket s.plan ready s.pockets s.transit.letters 0
  refine h.of_letters (resolveFirst_tags _ _ _ _)
    (reads_of_map (resolveFirst_map Letter.lasting_reads _ _ _ _) h.letters.reads)
    (TableRight.resolveFirst (before := []) passes s.plan h.table)
    ((congrArg Pocket.capacity pocket).trans rfl) ((congrArg Pocket.fill pocket).trans rfl)
    unitsKept_of_same rfl rfl rfl

theorem not_loading_of_unloaded {s : State} (h : s.LoadRight) (unloaded : s.plan.load = none) :
    s.plan.state ≠ .loading := fun loading => by
  have := h.loading.1 loading
  simp [unloaded] at this

theorem resolveWhere_inv {ready : Letter → Bool} (passes : PassesOver ready) {s : State}
    (h : s.Inv) : (s.resolveWhere ready).Inv := by
  obtain ⟨parts, load⟩ := (inv_iff s).1 h
  refine (inv_iff _).2 ⟨resolveWhere_parts passes parts,
    loadRight_of_carries load (resolveWhere_carries passes s) fun unloaded none x hx => ?_⟩
  rcases mem_resolveList hx with ⟨old, -⟩ | ⟨pk, l, rfl⟩
  · exact none x old
  · exact resolveLetter_not_awaiting (not_loading_of_unloaded load unloaded) pk l

theorem resolveOne_inv {ready : Letter → Bool} (passes : PassesOver ready) {s : State}
    (h : s.Inv) : (s.resolveOne ready).Inv := by
  obtain ⟨parts, load⟩ := (inv_iff s).1 h
  refine (inv_iff _).2 ⟨resolveOne_parts passes parts,
    loadRight_of_carries load (resolveOne_carries passes s) fun unloaded none x hx => ?_⟩
  rcases mem_resolveFirst hx with old | ⟨pk, l, rfl⟩
  · exact none x old
  · exact resolveLetter_not_awaiting (not_loading_of_unloaded load unloaded) pk l

theorem resolveReady_inv {s : State} (h : s.Inv) : (resolveReady s).Inv :=
  resolveWhere_inv (passesOver_readyNow s) h

theorem decideDue_inv {s : State} (h : s.Inv) : (decideDue s).Inv := by
  unfold decideDue expireDecide
  split
  case h_1 l watched =>
    split
    · have counted := (countMisses_quiet l _).inv (resolveOne_inv passesOver_collecting h)
      simp only
      split
      · exact resolveReady_inv counted
      · exact counted
    · exact h
  case h_2 => exact h

theorem takeDecides_inv (n : Nat) {s : State} (h : s.Inv) : (takeDecides n s).Inv := by
  induction n generalizing s with
  | zero => exact h
  | succ n ih => exact ih (decideDue_inv h)

theorem decideExpiry_inv {s : State} (h : s.Inv) : (decideExpiry s).Inv := by
  unfold decideExpiry
  split
  · exact h
  · exact decideDue_inv h

theorem encAdvance_inv {s : State} (h : s.Inv) : (encAdvance s).Inv := by
  unfold encAdvance
  split
  · exact h
  · exact takeDecides_inv _ (takeLost_inv _ (countedAdvance_inv h) rfl)

/-! ### Reads and reports (R84, R85) -/

/-- A change of one letter that leaves its tag and state, and its read set within four. -/
structure LetterKept (f : Letter → Letter) : Prop where
  tag   : ∀ l, (f l).tag = l.tag
  state : ∀ l, (f l).state = l.state
  reads : ∀ l, l.reads.length ≤ Config.maxReads → (f l).reads.length ≤ Config.maxReads

theorem takeRead_kept (r : Read) : LetterKept (Letter.takeRead r) := by
  refine ⟨fun l => (takeRead_follows r l).1, fun l => ?_, fun l bound => ?_⟩
  · unfold Letter.takeRead Letter.joinRead
    split
    case h_1 | h_2 => split <;> rfl
    case h_3 => rfl
  · have joined : (l.joinRead r).reads.length ≤ Config.maxReads := by
      unfold Letter.joinRead
      split
      case isTrue room =>
        rw [List.length_append]
        exact room
      case isFalse =>
        simp only [List.length_append, List.length_take, List.length_singleton, Config.maxReads]
        omega
    unfold Letter.takeRead
    split
    case h_1 | h_2 => exact joined
    case h_3 => exact bound

theorem report_kept (st : StationIx) : LetterKept (Letter.report st) :=
  ⟨fun _ => rfl, fun _ => rfl, fun _ bound => bound⟩

theorem modifyFirst_map {α : Type} {f : Letter → Letter} {g : Letter → α}
    (same : ∀ l, g (f l) = g l) (p : Letter → Bool) (ls : List Letter) :
    (modifyFirst p f ls).map g = ls.map g := by
  induction ls with
  | nil => rfl
  | cons l ls ih =>
    unfold modifyFirst
    split
    · simp [same]
    · simp [ih]

theorem mem_modifyFirst {f : Letter → Letter} {p : Letter → Bool} {ls : List Letter} {x : Letter}
    (h : x ∈ modifyFirst p f ls) : x ∈ ls ∨ ∃ l ∈ ls, x = f l := by
  induction ls with
  | nil => simp [modifyFirst] at h
  | cons l ls ih =>
    unfold modifyFirst at h
    split at h
    · rcases List.mem_cons.1 h with rfl | h
      · exact .inr ⟨l, List.mem_cons_self, rfl⟩
      · exact .inl (List.mem_cons_of_mem l h)
    · rcases List.mem_cons.1 h with rfl | h
      · exact .inl List.mem_cons_self
      · exact (ih h).imp (List.mem_cons_of_mem l)
          fun ⟨y, hy, e⟩ => ⟨y, List.mem_cons_of_mem l hy, e⟩

/-- A reservation of pocket `p`, read off a letter's state alone. -/
def stateReserves (p : PocketIx) : LetterState → Bool
  | .decided d => d.final == p
  | .collecting | .awaitPlan => false

theorem reserves_eq_stateReserves (p : PocketIx) (l : Letter) :
    l.reserves p = stateReserves p l.state := by
  unfold Letter.reserves
  cases l.state <;> rfl

theorem countP_reserves_of_state {ls xs : List Letter} (h : xs.map (·.state) = ls.map (·.state))
    (p : PocketIx) : xs.countP (Letter.reserves p) = ls.countP (Letter.reserves p) := by
  have reserves : Letter.reserves p = stateReserves p ∘ (·.state) :=
    funext (reserves_eq_stateReserves p)
  rw [reserves, ← List.countP_map, ← List.countP_map, h]

theorem changeLetter_inv {f : Letter → Letter} (kept : LetterKept f) (t : Tag) {s : State}
    (carries : Carries s (s.changeLetter t f)) (h : s.Inv) : (s.changeLetter t f).Inv := by
  obtain ⟨parts, load⟩ := (inv_iff s).1 h
  have same (p : PocketIx) : (s.changeLetter t f).pocket p = s.pocket p := rfl
  have states := modifyFirst_map kept.state (fun l => l.tag == t) s.transit.letters
  refine (inv_iff _).2 ⟨parts.of_letters (modifyFirst_map kept.tag _ _) (fun x hx => ?_) ?_ rfl rfl
    unitsKept_of_same rfl rfl rfl, loadRight_of_carries load carries fun _ none x hx => ?_⟩
  · rcases mem_modifyFirst hx with old | ⟨l, hl, rfl⟩
    · exact parts.letters.reads x old
    · exact kept.reads l (parts.letters.reads l hl)
  · refine ⟨fun p => ?_, parts.table.atRest, parts.table.draining⟩
    rw [same, parts.table.inFlight]
    exact (countP_reserves_of_state states p).symm
  · rcases mem_modifyFirst hx with old | ⟨l, hl, rfl⟩
    · exact none x old
    · rw [kept.state]
      exact none l hl

theorem takeRecord_inv (st : StationIx) (ws : List Word) {s : State} (h : s.Inv) :
    (takeRecord st ws s).Inv := by
  have tagged := (setStation_quiet st { s.station st with lastTag := some (recordTag ws) } s).inv h
  have delivered : (deliverRead st ws
      (s.setStation st { s.station st with lastTag := some (recordTag ws) })).Inv := by
    unfold deliverRead
    split
    · exact changeLetter_inv (takeRead_kept _) _ (changeLetter_carries (takeRead_follows _) _ _) tagged
    · exact tagged
  unfold takeRecord
  simp only
  split
  · exact resolveOne_inv (passesOver_testLetter _ _) ((setStation_quiet _ _ _).inv
      (changeLetter_inv (report_kept st) _ (changeLetter_carries (report_follows st) _ _) delivered))
  · exact delivered

theorem completeRecord_inv (st : StationIx) (slot : Nat) (ws : List Word) {s : State} (h : s.Inv) :
    (completeRecord st slot ws s).Inv := by
  unfold completeRecord
  split
  · exact (rejectRecord_quiet _ _ _ _ s).inv h
  · exact takeRecord_inv st ws ((frameGood_quiet _ _ s).inv h)

theorem stationSnoop_inv (st : StationIx) (offset : Nat) (data : Word) (enables : Enables)
    {s : State} (h : s.Inv) : (stationSnoop st offset data enables s).Inv := by
  have assembled : (assembleWord st offset data enables s).Inv := by
    unfold assembleWord collectWord
    split
    · exact (setStation_quiet _ _ s).inv h
    · split
      · split
        · exact (setStation_quiet _ _ s).inv h
        · exact completeRecord_inv _ _ _ ((setStation_quiet _ _ s).inv h)
      · exact (alignReject_quiet _ _ _ _ _ s).inv h
  unfold stationSnoop
  cases (s.station st).framing with
  | off => exact h
  | hunt | locked => exact assembled

theorem stationRingWrite_inv (st : StationIx) (offset : Nat) (data : Word) (enables : Enables)
    {s : State} (h : s.Inv) : (stationRingWrite st offset data enables s).Inv := by
  unfold stationRingWrite
  split
  · exact stationSnoop_inv st offset data enables h
  · exact h

theorem stationCommandOn_inv {own : State → State} {c : Command} {st : StationIx} {s : State}
    (h : s.Inv) (taken : (own s).Inv) : (stationCommandOn c st own s).Inv := by
  refine whenIdle_inv h fun _ => ?_
  split
  · exact (refuse_quiet _ _ s).inv h
  · exact taken

theorem huntStation_inv (st : StationIx) (cause : StationCause) {s : State} (h : s.Inv) :
    (huntStation st cause s).Inv := resolveReady_inv ((changeStation_quiet _ _ _ _ s).inv h)

theorem disableStation_inv (st : StationIx) {s : State} (h : s.Inv) : (disableStation st s).Inv := by
  have changed := (changeStation_quiet st (s.station st).disabled .disable 0#32 s).inv h
  unfold disableStation testIfExpected
  split
  · exact resolveReady_inv changed
  · exact changed

theorem commandStationDisable_inv (st : StationIx) {s : State} (h : s.Inv) :
    (commandStationDisable st s).Inv := by
  refine stationCommandOn_inv h ?_
  split
  case h_3 => exact (ackTaken_quiet _ _ s).inv h
  all_goals exact (ackTaken_quiet _ _ _).inv (disableStation_inv st h)

theorem commandStationEnable_inv (st : StationIx) {s : State} (h : s.Inv) :
    (commandStationEnable st s).Inv := by
  refine stationCommandOn_inv h ?_
  split
  case h_1 => exact (ackTaken_quiet _ _ _).inv (huntStation_inv st _ h)
  all_goals exact (refuse_quiet _ _ s).inv h

theorem commandStationRestart_inv (st : StationIx) {s : State} (h : s.Inv) :
    (commandStationRestart st s).Inv := by
  refine stationCommandOn_inv h ?_
  split
  case h_3 => exact (refuse_quiet _ _ s).inv h
  all_goals exact (ackTaken_quiet _ _ _).inv (huntStation_inv st _ h)

end Sys2Proof.Proofs
end

section
/-! PROOFS. Entries, accepted records, pocket commands, the plan loader and resets keep the invariant; so does every step but a grant (O54 to O58). -/

namespace Sys2Proof.Proofs

open Sys2Proof Sys2Proof.Machine Sys2Proof.Laws

/-! ### The occupancy latch (R57) -/

theorem evalOccupancy_units (s : State) : UnitsKept s (evalOccupancy s) :=
  UnitsKept.trans unitsKept_of_same (evalFeedHold_units _)

theorem evalOccupancy_feedRight (s : State) : FeedRight (evalOccupancy s) :=
  evalFeedHold_feedRight _

/-- After the latch is evaluated it stands as its sum demands. -/
theorem evalOccupancy_count {s : State} (transit : s.transitCount ≤ Config.maxTransit)
    (sum : s.occupancySum ≤ Config.maxSum) : CountRight (evalOccupancy s) := by
  have count : (evalOccupancy s).transitCount = s.transitCount := by simp [State.transitCount]
  have same : (evalOccupancy s).occupancySum = s.occupancySum := by
    simp [State.occupancySum, State.transitCount, State.retireCount]
  have latch : (evalOccupancy s).transport.occupancy =
      nextOccupancy s.transport.occupancy s.occupancySum := by simp
  refine ⟨count ▸ transit, same ▸ sum, fun set => ?_, fun clear => ?_⟩
  · rw [same] at set
    rw [latch, nextOccupancy, if_pos set]
  · rw [same] at clear
    rw [latch, nextOccupancy, if_neg (by simp only [Config.occupancySet, Config.occupancyClear] at *; omega),
      if_pos clear]

/-! ### Entries (R60, R61) -/

/-- What an entry that is not refused has passed (R60). -/
theorem passed_of_entryRefusal_none {s : State} {e : Option Entry} {tag : Tag}
    (h : s.entryRefusal e tag = none) : s.transport.line ≠ .stopped ∧
      s.transitCount ≠ Config.maxTransit ∧ s.occupancySum ≠ Config.maxSum := by
  unfold State.entryRefusal at h
  split at h
  · cases h
  case isFalse line =>
    split at h
    · cases h
    · split at h
      · cases h
      case isFalse room => exact ⟨line, not_or.1 room⟩

/-- The list with the entry's letter, before the latch is evaluated. -/
def withEntry (e : Entry) (s : State) : State :=
  { s with transit := { s.transit with
    letters := s.transit.letters ++ [s.newLetter e], lastTag := some e.tag, gap := some 0 } }

theorem takeEntry_eq (e : Entry) (s : State) :
    takeEntry e s = restartStallIfFirst (evalOccupancy (withEntry e s)) := rfl

/-- Behind other letters the monitor goes on; a first letter restarts it. -/
theorem restartStallIfFirst_right {s : State}
    (more : s.transitCount ≠ 1 → StallRight s) : StallRight (restartStallIfFirst s) := by
  unfold restartStallIfFirst
  split
  · exact restartStall_stallRight s
  case isFalse other => exact more other

theorem restartStallIfFirst_units (s : State) : UnitsKept s (restartStallIfFirst s) := by
  unfold restartStallIfFirst
  split
  · exact unitsKept_of_same
  · exact (Quiet.refl s).units

theorem restartStallIfFirst_transport (s : State) :
    (restartStallIfFirst s).transport =
      { s.transport with stall := (restartStallIfFirst s).transport.stall } := by
  unfold restartStallIfFirst
  split <;> rfl

theorem lettersRight_append {ls : List Letter} {l : Letter} (h : LettersRight ls)
    (reads : l.reads.length ≤ Config.maxReads)
    (free : ∀ x ∈ ls, slotOf x.tag ≠ slotOf l.tag) : LettersRight (ls ++ [l]) := by
  refine ⟨fun x hx => ?_, ?_⟩
  · rcases List.mem_append.1 hx with old | new
    · exact h.reads x old
    · rwa [List.mem_singleton.1 new]
  · rw [List.map_append, List.map_singleton, List.nodup_append]
    refine ⟨h.slots, List.nodup_singleton _, fun a ha b hb => ?_⟩
    obtain ⟨x, hx, rfl⟩ := List.mem_map.1 ha
    exact List.mem_singleton.1 hb ▸ free x hx

theorem takeEntry_inv {s : State} {e : Entry} {x : Option Entry} (h : s.Inv)
    (passed : s.entryRefusal x e.tag = none) : (takeEntry e s).Inv := by
  obtain ⟨parts, load⟩ := (inv_iff s).1 h
  obtain ⟨line, room, sum⟩ := passed_of_entryRefusal_none passed
  have free := letterBySlot_of_entryRefusal_none passed
  have letters := takeEntry_letters e s
  have transport := restartStallIfFirst_transport (evalOccupancy (withEntry e s))
  have transit : (withEntry e s).transitCount = s.transitCount + 1 := by
    simp [withEntry, State.transitCount]
  have count := evalOccupancy_count (s := withEntry e s)
    (by rw [transit]; exact Nat.lt_of_le_of_ne parts.count.transit room)
    (by
      have := Nat.lt_of_le_of_ne parts.count.sum sum
      have retire : (withEntry e s).retireCount = s.retireCount := rfl
      simp only [State.occupancySum, transit, retire] at this ⊢
      omega)
  have units : UnitsKept s (takeEntry e s) :=
    (UnitsKept.trans (s := s) (t := withEntry e s) (unitsKept_of_same rfl rfl rfl rfl rfl rfl)
      (evalOccupancy_units _)).trans (restartStallIfFirst_units _)
  refine (inv_iff _).2 ⟨⟨units.notice parts.notice, units.port parts.port, ?_, ?_, ?_, ?_, ?_⟩, ?_⟩
  · exact count.congr (by simp [takeEntry_eq, State.transitCount])
      (by simp [takeEntry_eq, State.occupancySum, State.transitCount, State.retireCount])
      (by rw [takeEntry_eq, transport])
  · rw [letters]
    exact lettersRight_append parts.letters (Nat.zero_le _) fun l hl => by
      simpa [State.newLetter] using List.find?_eq_none.1 free l hl
  · exact feedRight_of_transport (evalOccupancy_feedRight (withEntry e s))
      (by rw [takeEntry_eq, transport]) (by rw [takeEntry_eq, transport])
      (by rw [takeEntry_eq, transport]) (by simp [takeEntry_eq]) (by simp [takeEntry_eq])
  · refine restartStallIfFirst_right fun other => parts.stall.congr (by simp) (by simp) ?_
    have more : s.transitCount ≠ 0 := by
      simpa [State.transitCount, withEntry] using other
    have old : s.transit.letters ≠ [] := fun none => more (by simp [State.transitCount, none])
    simp [old]
  · rw [letters, show (takeEntry e s).pocket = s.pocket from
      funext (pocket_congr (by simp [takeEntry]))]
    refine ⟨fun p => ?_, parts.table.atRest, parts.table.draining⟩
    rw [parts.table.inFlight, List.countP_append]
    rfl
  · refine loadRight_congr load (by simp [takeEntry]) (by simp [takeEntry]) (fun none l hl => ?_)
      (fun ⟨stopped, _⟩ => absurd stopped line)
    rw [letters] at hl
    rcases List.mem_append.1 hl with old | new
    · exact none l old
    · rw [List.mem_singleton.1 new]
      simp [State.newLetter]

theorem completeEntry_inv (first second : Word) {s : State} (h : s.Inv) :
    (completeEntry first second s).Inv := by
  unfold completeEntry
  split
  case h_1 e passed entry => exact takeEntry_inv h (entryOf_tag entry ▸ passed)
  case h_2 => exact (raise_quiet _ s).inv h
  case h_3 => exact h

theorem inductionSnoop_inv (offset : Nat) (data : Word) (enables : Enables) {s : State} (h : s.Inv) :
    (inductionSnoop offset data enables s).Inv := by
  have framed (c : FramingBreak) (i : Nat) (held : Option Nat) (a : EntryAssembly) :
      (framingNotice c i held (setAssembly a s)).Inv :=
    ((setAssembly_quiet a s).trans (framingNotice_quiet _ _ _ _)).inv h
  unfold inductionSnoop
  simp only
  split
  · exact (setAssembly_quiet _ s).inv h
  · exact (framingNotice_quiet _ _ _ s).inv h
  · exact (framingNotice_quiet _ _ _ s).inv h
  · exact framed _ _ _ _
  · split
    · exact completeEntry_inv _ _ ((setAssembly_quiet _ s).inv h)
    · exact framed _ _ _ _
  · exact framed _ _ _ _

theorem inductionRingWrite_inv (offset : Nat) (data : Word) (enables : Enables) {s : State}
    (h : s.Inv) : (inductionRingWrite offset data enables s).Inv := by
  unfold inductionRingWrite
  split
  · exact inductionSnoop_inv offset data enables h
  · exact h

/-! ### An accepted record (R148) -/

theorem recordAccepted_inv {s : State} (h : s.Inv) : (recordAccepted s).Inv := by
  cases retire : s.retire with
  | nil =>
    simp only [recordAccepted, retire]
    exact h
  | cons r rest =>
    obtain ⟨parts, load⟩ := (inv_iff s).1 h
    have sum : State.occupancySum { s with retire := rest } + 1 = s.occupancySum := by
      simp [State.occupancySum, State.retireCount, State.transitCount, retire, Nat.add_assoc]
    have count := evalOccupancy_count (s := { s with retire := rest }) parts.count.transit
      (by have := parts.count.sum; omega)
    have units : UnitsKept s (evalOccupancy { s with retire := rest }) :=
      UnitsKept.trans unitsKept_of_same (evalOccupancy_units _)
    have pocket : (evalOccupancy { s with retire := rest }).pocket = s.pocket :=
      funext (pocket_congr (by simp))
    refine (recordAccepted_quiet_after retire).inv ((inv_iff _).2 ⟨⟨units.notice parts.notice,
      units.port parts.port, count, by simpa using parts.letters, evalOccupancy_feedRight _,
      parts.stall.congr (by simp) (by simp) (by simp), ?_⟩, ?_⟩)
    · rw [pocket]
      simpa using parts.table
    · exact loadRight_congr load (by simp) (by simp) (by simp) (by simp)

theorem chainRecordWordDone_inv (answer : WriteAnswer) {s : State} (h : s.Inv) :
    (chainRecordWordDone answer s).Inv := by
  have freed := (freePort_quiet s).inv h
  have accepted : (recordWordAccepted (freePort s)).Inv := by
    unfold recordWordAccepted
    split
    · split
      · exact recordAccepted_inv freed
      · exact (beginWork_quiet _ _).inv freed
    all_goals exact freed
  have answered (act : State → State) (acted : (act (freePort s)).Inv) :
      (chainAnswer .chainRecord act s).Inv := by
    rcases chainAnswer_cases .chainRecord act s with e | e | e <;> rw [e]
    · exact h
    · exact (afterAbandoned_quiet _).inv freed
    · exact acted
  cases answer with
  | ok => exact answered _ accepted
  | error => exact answered _ ((chainMemoryFault_quiet _).inv freed)

/-! ### Pocket commands and the sweep (R130, R131, R136) -/

/-- A pocket other than pocket 0 takes a new state that its in-flight count admits. -/
theorem setPocket_inv {s : State} (h : s.Inv) {p : PocketIx} {x : Pocket} (zero : p ≠ 0)
    (inFlight : x.inFlight = (s.pocket p).inFlight)
    (atRest : x.state = .closed ∨ x.state = .disabled → x.inFlight = 0)
    (draining : ∀ t, x.state = .draining t → 0 < x.inFlight) : (s.setPocket p x).Inv := by
  obtain ⟨parts, load⟩ := (inv_iff s).1 h
  have pocket0 : (s.setPocket p x).pocket 0 = s.pocket 0 := by simp [zero]
  refine (inv_iff _).2 ⟨⟨parts.notice.congr rfl rfl rfl, parts.port.congr rfl rfl rfl,
    parts.count.congr (le_refl _) rfl rfl, parts.letters,
    parts.feed.congr rfl rfl rfl rfl (by rw [pocket0]) (by rw [pocket0]), parts.stall.congr rfl rfl
    (Iff.refl _), ?_⟩, loadRight_congr load rfl rfl id id⟩
  refine ⟨fun q => ?_, fun q other rest => ?_, fun q t drains => ?_⟩
  · rw [setPocket_pocket]
    split
    case isTrue same => rw [inFlight, same]; exact parts.table.inFlight q
    case isFalse => exact parts.table.inFlight q
  · rw [setPocket_pocket] at rest ⊢
    split at rest
    case isTrue same => rw [if_pos same]; exact atRest rest
    case isFalse differ => rw [if_neg differ]; exact parts.table.atRest q other rest
  · rw [setPocket_pocket] at drains ⊢
    split at drains
    case isTrue same => rw [if_pos same]; exact draining t drains
    case isFalse differ => rw [if_neg differ]; exact parts.table.draining q t drains

theorem closeBatch_inv {s : State} (h : s.Inv) {p : PocketIx} {x : PocketState} (zero : p ≠ 0)
    (empty : (s.pocket p).inFlight = 0) (rest : ∀ t, x ≠ .draining t) : (closeBatch p x s).Inv :=
  (batchEnd_quiet _ _).inv (setPocket_inv h zero rfl (fun _ => empty)
    fun t drains => absurd drains (rest t))

theorem startDrain_inv {s : State} (h : s.Inv) {p : PocketIx} (zero : p ≠ 0) (t : DrainTarget)
    (some : (s.pocket p).inFlight ≠ 0) : (startDrain p t s).Inv :=
  setPocket_inv h zero rfl (by simp) fun _ _ => Nat.pos_of_ne_zero some

theorem newBatch_inv {s : State} (h : s.Inv) {p : PocketIx} (zero : p ≠ 0) : (newBatch p s).Inv :=
  setPocket_inv h zero rfl (by simp) (by simp)

theorem pocketCommandOn_inv {own : State → State} {c : Command} {p : PocketIx} {s : State}
    (h : s.Inv) (taken : p ≠ 0 → (own s).Inv) : (pocketCommandOn c p own s).Inv := by
  refine whenIdle_inv h fun _ => ?_
  split
  · exact (refuse_quiet _ _ s).inv h
  case isFalse good =>
    simp only [State.pocketArgBad, Bool.or_eq_true, decide_eq_true_eq, not_or] at good
    exact taken good.1

theorem commandPocketOpen_inv (p : PocketIx) {s : State} (h : s.Inv) :
    (commandPocketOpen p s).Inv := by
  refine pocketCommandOn_inv h fun zero => ?_
  split
  · exact (ackTaken_quiet _ _ _).inv (newBatch_inv h zero)
  all_goals exact (refuse_quiet _ _ s).inv h

theorem commandPocketEnable_inv (p : PocketIx) {s : State} (h : s.Inv) :
    (commandPocketEnable p s).Inv := by
  refine pocketCommandOn_inv h fun zero => ?_
  split
  · exact (ackTaken_quiet _ _ _).inv (newBatch_inv h zero)
  all_goals exact (refuse_quiet _ _ s).inv h

theorem commandPocketDisable_inv (p : PocketIx) {s : State} (h : s.Inv) :
    (commandPocketDisable p s).Inv := by
  refine pocketCommandOn_inv h fun zero => ?_
  unfold disablePocket
  simp only
  split
  · split
    case isTrue empty => exact (ackTaken_quiet _ _ _).inv (closeBatch_inv h zero empty (by simp))
    case isFalse some => exact (ackTaken_quiet _ _ _).inv (startDrain_inv h zero _ some)
  case h_2 target state =>
    exact (ackTaken_quiet _ _ _).inv (startDrain_inv h zero _ (h.pockets.draining p target state).ne')
  case h_3 state =>
    exact (ackTaken_quiet _ _ _).inv (setPocket_inv h zero rfl
      (fun _ => h.pockets.atRest p zero (.inl state)) (by simp))
  · exact (refuse_quiet _ _ s).inv h

theorem sweepPockets_inv (ps : List PocketIx) {s : State} (h : s.Inv) (zero : ∀ p ∈ ps, p ≠ 0) :
    (sweepPockets ps s).Inv := by
  induction ps generalizing s with
  | nil => exact h
  | cons p ps ih =>
    obtain ⟨here, later⟩ := List.forall_mem_cons.1 zero
    refine ih (s := sweepPocket p s) ?_ later
    unfold sweepPocket
    split
    · split
      case isTrue empty => exact closeBatch_inv h here empty (by simp)
      case isFalse some => exact startDrain_inv h here _ some
    · exact (raise_quiet _ s).inv h
    all_goals exact h

theorem commandSweepGo_inv {s : State} (h : s.Inv) : (commandSweepGo s).Inv := by
  refine whenIdle_inv h fun _ => ?_
  split
  case h_3 first last ex _ =>
    have swept := sweepPockets_inv (sweepSelection first last ex) h fun p hp => by
      simp only [sweepSelection, List.mem_filter, Bool.and_eq_true, decide_eq_true_eq] at hp
      exact hp.2.1.2
    have ended : Quiet (sweepPockets (sweepSelection first last ex) s)
        { sweepPockets (sweepSelection first last ex) s with sweep := .idle } := .of_same
    exact (ackSweep_quiet _ _ _).inv (ended.inv swept)
  all_goals exact (refuseSweep_quiet _ _ s).inv h

/-- Where the counts agree a drain is never due alone: DRAIN_COMPLETE finds letters in flight (log 4). -/
theorem drainComplete_inv (p : PocketIx) {s : State} (h : s.Inv) : (drainComplete p s).Inv := by
  have due : drainIfEmpty p s = s := by
    unfold drainIfEmpty
    cases state : (s.pocket p).state with
    | draining target => exact if_neg (h.pockets.draining p target state).ne'
    | disabled | opened | closed => rfl
  unfold drainComplete
  rw [due, ite_self]
  exact h

/-! ### The plan loader (R34 to R40) -/

/-- The load `ld` may go on: one that will change the layout stands over an empty list and a STOPPED line (R28). -/
def LoadLocked (ld : Load) (s : State) : Prop :=
  ld.changed = true → s.transport.line = .stopped ∧ s.transit.letters = []

/-- The plan registers but for the layout speak of the load alone. -/
theorem PartsRight.of_plan {s t : State} (h : PartsRight s) (units : UnitsKept s t)
    (layout : t.plan.layout = s.plan.layout := by simp)
    (transport : t.transport = s.transport := by simp)
    (letters : t.transit.letters = s.transit.letters := by simp)
    (retire : t.retire = s.retire := by simp) (pockets : t.pockets = s.pockets := by simp) :
    PartsRight t :=
  h.of_transport units
    (feedRight_of_transport h.feed (by rw [transport]) (by rw [transport]) (by rw [transport]) layout
      pockets)
    (h.stall.congr (by rw [transport]) (by rw [transport]) (by rw [letters]))
    (by rw [transport]) letters retire pockets

theorem readPlanWord_units (ld : Load) (s : State) : UnitsKept s (readPlanWord ld s) :=
  ⟨fun h => h.congr (by simp) (by simp) (by simp [readPlanWord]),
    fun h => ⟨h.chainWait, Nat.zero_le _, h.chain⟩⟩

theorem readPlanWord_inv {ld : Load} {s : State} (parts : PartsRight s)
    (loading : s.plan.state = .loading) (executing : s.cmd.executing = true)
    (locked : LoadLocked ld s) : (readPlanWord ld s).Inv := by
  refine (inv_iff _).2 ⟨parts.of_plan (readPlanWord_units ld s) (by simp [readPlanWord]), ?_⟩
  refine ⟨by simp [readPlanWord, loading], by simp [readPlanWord, executing],
    by simp [readPlanWord], fun x some changed => ?_⟩
  obtain rfl : ld = x := by simpa [readPlanWord] using some
  simpa using locked changed

theorem commandLoadPlan_inv (arg : BitVec 24) {s : State} (h : s.Inv) :
    (commandLoadPlan arg s).Inv := by
  refine whenIdle_inv h fun _ => readPlanWord_inv ?_ rfl rfl (by simp [LoadLocked, Load.begin])
  exact ((inv_iff s).1 h).1.of_plan (unitsKept_of_same rfl rfl rfl rfl rfl rfl) rfl rfl rfl rfl rfl

/-- A load ends: no letter waits for its plan any more, and the acknowledgment returns the command state to IDLE (R37, R38). -/
theorem endLoad_inv {s : State} (parts : PartsRight s) (state : s.plan.state ≠ .loading)
    (unloaded : s.plan.load = none) (r : ResultCode) (cause : Option LoadCause) (kept : Bool)
    (arg : Word) : (ackLoad r cause kept arg (resolveAwaiting s)).Inv := by
  have resolved := resolveWhere_parts passesOver_awaiting parts
  refine (acknowledge_quiet _ _).inv ((inv_iff _).2 ⟨?_, ?_⟩)
  · exact PartsRight.of_plan (s := resolveAwaiting s) resolved
      (unitsKept_of_same rfl rfl rfl rfl rfl rfl) rfl rfl rfl rfl rfl
  · refine ⟨?_, ?_, fun _ x hx => ?_, fun ld some => ?_⟩
    · simp [state, unloaded]
    · simp [unloaded]
    · rcases mem_resolveList hx with ⟨-, ready⟩ | ⟨pk, l, rfl⟩
      · simpa [Letter.awaiting] using ready
      · exact resolveLetter_not_awaiting state pk l
    · simp [unloaded] at some

theorem failLoad_inv (ld : Load) (cause : LoadCause) (detail : Word) {s : State}
    (parts : PartsRight s) : (failLoad ld cause detail s).Inv :=
  endLoad_inv (parts.of_plan (t := { s with plan := { s.plan with state := .invalid, load := none } })
    (unitsKept_of_same rfl rfl rfl rfl rfl rfl) rfl rfl rfl rfl rfl) (by simp) rfl _ _ _ _

/-- ATTN at a layout application stands right whatever it was, while no entry is being written. -/
theorem attnAtLayout_right {s : State} (fifo : s.notice.fifo.length ≤ Config.maxFifo)
    (wait : s.noticeReq.wait ≤ Config.waitLimit) (idle : s.notice.writing = none) :
    NoticeRight (attnAtLayout s) := by
  unfold attnAtLayout
  cases mode : s.notice.mode with
  | level => exact ⟨fifo, wait, fun writing => absurd idle writing, fun _ => rfl⟩
  | first => exact ⟨fifo, wait, fun writing => absurd idle writing, fun level => by simp [mode] at level⟩

theorem applyNoticeRing_right {s : State} (fifo : s.notice.fifo.length ≤ Config.maxFifo) :
    NoticeRight (applyNoticeRing s) :=
  noticePump_right (attnAtLayout_right fifo (Nat.zero_le _) rfl)

theorem attnAtLayout_frame (s : State) : (attnAtLayout s).chainReq = s.chainReq ∧
    (attnAtLayout s).planReq = s.planReq ∧ (attnAtLayout s).port = s.port := by
  unfold attnAtLayout
  split <;> simp

theorem applyNoticeRing_port {s : State} (h : PortRight s) : PortRight (applyNoticeRing s) := by
  have frame := fun t => attnAtLayout_frame t
  refine (withdrawNotice_port h).congr ?_ ?_ ?_ <;>
    simp [applyNoticeRing, frame]

theorem placePockets_rest (records : List PocketRecord) (p : PocketIx) :
    (placePockets records)[p].inFlight = 0 ∧ ∀ t, (placePockets records)[p].state ≠ .draining t := by
  simp only [placePockets, Fin.getElem_fin, Vector.getElem_ofFn]
  split
  case h_1 r _ =>
    refine ⟨rfl, fun t => ?_⟩
    unfold PocketRecord.fresh
    cases r.opens <;> simp
  case h_2 => exact ⟨rfl, fun t => by simp [Pocket.reset]⟩

theorem reconfigurePockets_kept (records : List PocketRecord) (pk : Pockets) (p : PocketIx) :
    (reconfigurePockets records pk)[p].inFlight = pk[p].inFlight ∧
      (reconfigurePockets records pk)[p].state = pk[p].state := by
  simp only [reconfigurePockets, Fin.getElem_fin, Vector.getElem_ofFn]
  split
  · exact ⟨rfl, rfl⟩
  · exact ⟨rfl, rfl⟩

theorem applyLayout_letters (l : Layout) (records : List PocketRecord) (s : State) :
    (applyLayout l records s).transit.letters = s.transit.letters := by simp [applyLayout]

theorem applyLayout_units (l : Layout) (records : List PocketRecord) {s : State}
    (h : PartsRight s) : NoticeRight (applyLayout l records s) ∧ PortRight (applyLayout l records s) :=
  ⟨applyNoticeRing_right h.notice.fifo, applyNoticeRing_port (h.port.congr rfl rfl rfl)⟩

/-- Step 2 of a completion: under a changed layout the list is empty and no reservation stands; under a kept one the run state of every pocket is kept (R39, R40). -/
theorem placeLayout_parts {ld : Load} {s : State} (l : Layout) (h : PartsRight s)
    (locked : LoadLocked ld s) : PartsRight (placeLayout ld l s) := by
  unfold placeLayout
  split
  case isTrue changed =>
    obtain ⟨stopped, empty⟩ := locked changed
    obtain ⟨notice, port⟩ := applyLayout_units l ld.records h
    have units := evalFeedHold_units (applyLayout l ld.records s)
    have letters := applyLayout_letters l ld.records s
    have pocket (p : PocketIx) : (evalFeedHold (applyLayout l ld.records s)).pocket p =
        (placePockets ld.records)[p] := by
      simp [State.pocket, applyLayout]
    refine ⟨units.notice notice, units.port port, ?_, ?_, evalFeedHold_feedRight _, ?_, ?_⟩
    · exact h.count.congr (by simp [State.transitCount, letters])
        (by simp [State.occupancySum, State.transitCount, State.retireCount, letters])
        (by simp [applyLayout])
    · simpa [letters] using h.letters
    · exact h.stall.congr (by simp [applyLayout]) (by simp [applyLayout]) (by simp [letters])
    · rw [show (evalFeedHold (applyLayout l ld.records s)).transit.letters = [] by simp [letters, empty]]
      exact ⟨fun p => by rw [pocket, (placePockets_rest _ p).1]; rfl,
        fun p _ _ => by rw [pocket, (placePockets_rest _ p).1],
        fun p t drains => absurd (pocket p ▸ drains) ((placePockets_rest _ p).2 t)⟩
  case isFalse =>
    have units := evalFeedHold_units
      { s with pockets := reconfigurePockets ld.records s.pockets }
    have pocket (p : PocketIx) : (evalFeedHold
        { s with pockets := reconfigurePockets ld.records s.pockets }).pocket p =
        (reconfigurePockets ld.records s.pockets)[p] := by
      simp [State.pocket]
    refine ⟨units.notice (h.notice.congr rfl rfl rfl), units.port (h.port.congr rfl rfl rfl),
      h.count.congr (by simp [State.transitCount])
        (by simp [State.occupancySum, State.transitCount, State.retireCount]) (by simp),
      by simpa using h.letters, evalFeedHold_feedRight _,
      h.stall.congr (by simp) (by simp) (by simp), ?_⟩
    rw [show (evalFeedHold { s with pockets := reconfigurePockets ld.records s.pockets }).transit =
      s.transit by simp]
    exact h.table.congr (fun p => by rw [pocket]; exact (reconfigurePockets_kept _ _ p).2)
      (fun p => by rw [pocket]; exact (reconfigurePockets_kept _ _ p).1)

theorem handOver_units (p : Params) (rules : List Rule) (s : State) :
    UnitsKept s (handOver p rules s) :=
  ⟨fun h => takeAttnMode_right _ (setMask_right _ (h.congr rfl rfl rfl)),
    fun h => h.congr (by simp) (by simp) (by simp)⟩

theorem handOver_plan (p : Params) (rules : List Rule) (s : State) :
    (handOver p rules s).plan = { s.plan with
      rules := rules, planId := p.planId, defaultPocket := p.defaultPocket
      noReadPocket := p.noReadPocket, minGrade := p.minGrade, missLimit := p.missLimit } := by
  simp [handOver]

theorem placeLayout_load (ld : Load) (l : Layout) (s : State) :
    (placeLayout ld l s).plan.load = s.plan.load := by
  unfold placeLayout
  split <;> simp [applyLayout]

theorem completeLoadWith_inv {ld : Load} {s : State} (l : Layout) (p : Params)
    (parts : PartsRight s) (locked : LoadLocked ld s) : (completeLoadWith ld l p s).Inv := by
  have unloaded : PartsRight { s with plan := { s.plan with load := none } } :=
    parts.of_plan (unitsKept_of_same rfl rfl rfl rfl rfl rfl) rfl rfl rfl rfl rfl
  have placed := placeLayout_parts l unloaded (ld := ld) locked
  have handed := placed.of_plan (handOver_units p ld.rules _) (by rw [handOver_plan])
  have completed (u : State) (h : PartsRight u) (unl : u.plan.load = none) :
      (ackLoad .ok none ld.sweepCancelled p.planId
        (resolveAwaiting { u with plan := { u.plan with state := .valid } })).Inv :=
    endLoad_inv (s := { u with plan := { u.plan with state := .valid } })
      (h.of_plan (unitsKept_of_same rfl rfl rfl rfl rfl rfl) rfl rfl rfl rfl rfl) (by simp) unl _ _ _ _
  exact completed _ handed (by simp only [handOver_plan, placeLayout_load])

/-- A load that is running, as its block or word is taken. -/
structure LoadRuns (ld : Load) (s : State) : Prop where
  parts     : PartsRight s
  loading   : s.plan.state = .loading
  executing : s.cmd.executing = true
  locked    : LoadLocked ld s

/-- What the load has learnt of other blocks does not touch the lock. -/
theorem LoadRuns.congr {ld ld' : Load} {s : State} (h : LoadRuns ld s)
    (changed : ld'.changed = ld.changed) : LoadRuns ld' s :=
  ⟨h.parts, h.loading, h.executing, by rw [LoadLocked, changed]; exact h.locked⟩

theorem LoadRuns.read {ld : Load} {s : State} (h : LoadRuns ld s) : (readPlanWord ld s).Inv :=
  readPlanWord_inv h.parts h.loading h.executing h.locked

theorem blockPassed_inv {ld : Load} {s : State} (h : LoadRuns ld s) : (blockPassed ld s).Inv := by
  unfold blockPassed
  split
  · split
    · exact completeLoadWith_inv _ _ h.parts h.locked
    · exact LoadRuns.read (h.congr rfl)
  · exact LoadRuns.read (h.congr rfl)

/-- Block 0 passes only where the layout is kept, or the line is STOPPED and the list empty (R28). -/
theorem checkLayoutBlock_inv {ld : Load} {s : State} (bs : List Byte) (h : LoadRuns ld s) :
    (checkLayoutBlock ld bs s).Inv := by
  unfold checkLayoutBlock
  simp only
  split
  · exact failLoad_inv _ _ _ h.parts
  · split
    · exact failLoad_inv _ _ _ h.parts
    case isFalse free =>
      refine blockPassed_inv ⟨h.parts, h.loading, h.executing, fun changed => ?_⟩
      rw [Bool.and_eq_true, not_and] at free
      simpa [State.layoutLocked] using free changed

theorem checkPayload_inv {ld : Load} {s : State} (bs : List Byte) (h : LoadRuns ld s) :
    (checkPayload ld bs s).Inv := by
  unfold checkPayload
  split
  · split
    · unfold checkPocketBlock
      split
      · exact failLoad_inv _ _ _ h.parts
      · exact blockPassed_inv (h.congr rfl)
    · unfold checkRuleBlock
      split
      · exact failLoad_inv _ _ _ h.parts
      · exact blockPassed_inv (h.congr rfl)
  · unfold checkParamBlock
    split
    · exact failLoad_inv _ _ _ h.parts
    · exact blockPassed_inv (h.congr rfl)
  · exact checkLayoutBlock_inv bs h

theorem planWord_inv {ld : Load} {s : State} (data : Word) (h : LoadRuns ld s) :
    (planWord ld data s).Inv := by
  unfold planWord checkBlock
  simp only
  split
  · exact LoadRuns.read (h.congr rfl)
  · split
    · exact failLoad_inv _ _ _ h.parts
    · split
      · exact failLoad_inv _ _ _ h.parts
      · exact checkPayload_inv _ (h.congr rfl)

theorem planReadDone_inv (answer : MemAnswer) {s : State} (h : s.Inv) :
    (planReadDone answer s).Inv := by
  have freed := (freePort_quiet s).inv h
  obtain ⟨parts, load⟩ := (inv_iff _).1 freed
  have answered : (planAnswer answer (freePort s)).Inv := by
    unfold planAnswer
    split
    case h_1 ld running =>
      cases answer with
      | ok data =>
        exact planWord_inv data ⟨parts, load.loading.2 (by rw [running]; rfl),
          by rw [load.executing, running]; rfl, load.locked ld running⟩
      | error => exact failLoad_inv _ _ _ ((setMemoryFlag_quiet _).parts parts)
    case h_2 => exact freed
  unfold planReadDone
  split
  · split
    · split
      · exact freed
      · exact answered
    · exact h
  · exact h

theorem commandLoadAbort_inv {s : State} (h : s.Inv) : (commandLoadAbort s).Inv := by
  unfold commandLoadAbort abortLoad
  split
  · exact h
  · split
    · split
      · exact (ackTaken_quiet _ _ _).inv
          (failLoad_inv _ _ _ ((withdrawPlan_quiet s).parts ((inv_iff s).1 h).1))
      · exact (ackTaken_quiet _ _ s).inv h
    · exact (refuse_quiet _ _ s).inv h

/-! ### Commands, accesses and resets -/

theorem runCommand_inv (c : Command) {s : State} (h : s.Inv) : (runCommand c s).Inv := by
  cases c with
  | loadPlan arg => exact commandLoadPlan_inv arg h
  | loadAbort => exact commandLoadAbort_inv h
  | start => exact commandStart_inv h
  | stop => exact commandStop_inv h
  | purge => exact commandPurge_inv h
  | sweepFirst p => exact (commandSweepFirst_quiet p s).inv h
  | sweepLast p => exact (commandSweepLast_quiet p s).inv h
  | sweepExclude p => exact (commandSweepExclude_quiet p s).inv h
  | sweepGo => exact commandSweepGo_inv h
  | pocketOpen p => exact commandPocketOpen_inv p h
  | pocketDisable p => exact commandPocketDisable_inv p h
  | pocketEnable p => exact commandPocketEnable_inv p h
  | stationEnable st => exact commandStationEnable_inv st h
  | stationDisable st => exact commandStationDisable_inv st h
  | stationRestart st => exact commandStationRestart_inv st h
  | chainStart => exact (commandChainStart_quiet s).inv h
  | chainResume => exact (commandChainResume_quiet s).inv h
  | chainStop => exact (commandChainStop_quiet s).inv h
  | chainFlush => exact (commandChainFlush_quiet s).inv h
  | setNoticeMask mask => exact (commandSetNoticeMask_quiet mask s).inv h
  | setAttnMode mode => exact (commandSetAttnMode_quiet mode s).inv h
  | statusClear => exact (commandStatusClear_quiet s).inv h

theorem commandSnoop_inv (w : Word) (enables : Enables) {s : State} (h : s.Inv) :
    (commandSnoop w enables s).Inv := by
  unfold commandSnoop
  split
  · exact runCommand_inv _ h
  · exact (refuseWord_quiet w s).inv h

theorem badCommand_inv (w : Word) (enables : Enables) {s : State} (h : s.Inv) :
    (badCommand w enables s).Inv := by
  unfold badCommand
  split
  · exact h
  · exact commandSnoop_inv w enables h

theorem windowSnoop_inv (k : WindowKind) (offset : Nat) (data : Word) (enables : Enables)
    {s : State} (h : s.Inv) : (windowSnoop k offset data enables s).Inv := by
  cases k with
  | inductionRing => exact inductionSnoop_inv offset data enables h
  | stationRing st => exact stationSnoop_inv st offset data enables h
  | gateWindow | noticeRing | planImage => exact h

theorem snoop_inv (r : Region) (data : Word) (enables : Enables) {s : State} (h : s.Inv) :
    (snoop r data enables s).Inv := by
  unfold snoop
  split
  · exact commandSnoop_inv data enables h
  · exact (consumerSnoop_quiet data enables s).inv h
  · exact (chainBasePointer_quiet data enables s).inv h
  · exact (chainLastPointer_quiet data enables s).inv h
  · split
    · exact windowSnoop_inv _ _ data enables h
    · exact h
  all_goals exact h

theorem snoopOf_inv (f : Forwarded) (answer : MemAnswer) {s : State} (h : s.Inv) :
    (snoopOf f answer s).Inv := by
  unfold snoopOf
  split
  · exact snoop_inv _ _ _ h
  all_goals exact h

theorem passthroughDone_inv (answer : MemAnswer) {s : State} (h : s.Inv) :
    (passthroughDone answer s).Inv := by
  unfold passthroughDone
  split
  · split
    · exact (passBackLate_quiet _ _ _ s).inv h
    · split
      · exact snoopOf_inv _ _ ((passBack_quiet _ _ _ s).inv h)
      · exact h
  all_goals exact h

theorem landed_inv {p : PocketIx} {tag : Word} {s : State} (h : s.Inv) : (raiseFill p tag s).Inv := by
  obtain ⟨parts, load⟩ := (inv_iff s).1 h
  have units := raiseFill_units p tag s
  have transport := raiseFill_transport p tag s
  have landed (q : PocketIx) : ((raiseFill p tag s).pocket q).state = (s.pocket q).state ∧
      ((raiseFill p tag s).pocket q).inFlight = (s.pocket q).inFlight := by
    rw [raiseFill_pocket_eq]
    split <;> exact ⟨rfl, rfl⟩
  refine (inv_iff _).2 ⟨⟨units.notice parts.notice, units.port parts.port,
    parts.count.congr (by simp [State.transitCount])
      (by simp [State.occupancySum, State.transitCount, State.retireCount]) (by rw [transport]),
    by simpa using parts.letters, raiseFill_feedRight parts.feed p tag,
    parts.stall.congr (by rw [transport]) (by rw [transport]) (by simp), ?_⟩, ?_⟩
  · simpa using parts.table.congr (fun q => (landed q).1) fun q => (landed q).2
  · exact loadRight_congr load (by simp) (by simp) (by simp) (by rw [transport]; simp)


theorem gateRead_inv (slot : BitVec 8) (master : MasterNo) {s : State} (h : s.Inv) :
    (gateRead slot master s).Inv := by
  refine (respondWord_quiet _ _ _).inv ?_
  unfold gateEffect dispatch
  split
  · split
    case h_1 l found => exact dispatchLetter_inv h found
    case h_2 => exact (raise_quiet _ _).inv (landed_inv h)
  · exact h

theorem gateDispatch_inv (slot : BitVec 8) {s : State} (h : s.Inv) : (gateDispatch slot s).Inv := by
  unfold gateDispatch
  split
  · exact h
  · split
    · exact gateRead_inv slot _ h
    · exact h

theorem answerOverlay_inv (o : Overlay) (master : MasterNo) {s : State} (h : s.Inv) :
    (answerOverlay o master s).Inv := by
  cases o with
  | word w => exact (respondWord_quiet master w s).inv h
  | slot slot => exact gateRead_inv slot master h

theorem classify_inv (a : Access) {s : State} (h : s.Inv) : (classify a s).Inv := by
  unfold classify
  cases a.op with
  | write data enables =>
    cases s.writeRefusal a.addr a.master with
    | some cause => exact (blockWrite_quiet cause a.addr a.master enables s).inv h
    | none => exact (forward_quiet a (s.regionOf a.addr) s).inv h
  | read =>
    cases s.overlay (s.regionOf a.addr) with
    | some o => exact answerOverlay_inv o a.master h
    | none => exact (forward_quiet a (s.regionOf a.addr) s).inv h

theorem backplaneAccess_inv (a : Access) {s : State} (h : s.Inv) : (backplaneAccess a s).Inv := by
  unfold backplaneAccess
  split
  · exact h
  · exact classify_inv _ h

/-! ### Grants (R20) -/

/-- What a grant writes: the port, the requests and the backplane. -/
theorem grant_eq (r : Requester) (s : State) : ∃ port notice chain plan backplane,
    grant r s = { s with
      port := port, noticeReq := notice, chainReq := chain, planReq := plan
      backplane := backplane } := by
  cases r with
  | passthrough =>
    simp only [grant, grantPassthrough]
    split
    · exact ⟨_, _, _, _, _, rfl⟩
    · exact ⟨_, _, _, _, _, rfl⟩
  | notice | chain | plan => exact ⟨_, _, _, _, _, rfl⟩

/-- The parts of the invariant that do not speak of the arbiter. -/
structure BlocksRight (s : State) : Prop where
  outputs : s.OutputsRight
  load    : s.LoadRight
  pockets : s.PocketsRight

theorem blocksRight_of_inv {s : State} (h : s.Inv) : BlocksRight s :=
  ⟨h.outputs, h.load, h.pockets⟩

theorem grant_blocks (r : Requester) {s : State} (h : BlocksRight s) : BlocksRight (grant r s) := by
  obtain ⟨port, notice, chain, plan, backplane, eq⟩ := grant_eq r s
  obtain ⟨outputs, load, pockets⟩ := h
  rw [eq]
  exact ⟨⟨outputs.feedHold, outputs.latchSet, outputs.latchOff, outputs.stall, outputs.attn⟩,
    ⟨load.loading, load.executing, load.awaiting, load.locked⟩,
    ⟨pockets.inFlight, pockets.atRest, pockets.draining⟩⟩

theorem arbiterGrant_blocks {s : State} (h : BlocksRight s) : BlocksRight (arbiterGrant s) := by
  unfold arbiterGrant
  split
  · exact h
  · split
    · exact grant_blocks _ h
    · exact h

/-! ### Resets and steps -/

theorem resetWith_pocket (cb : BitVec 4) (cm : MasterNo) (p : PocketIx) :
    (State.resetWith cb cm).pocket p = if p = 0 then .resetReject else .reset := by
  simp only [State.pocket, State.resetWith, Fin.getElem_fin, Vector.getElem_set,
    Vector.getElem_replicate]
  congr 1
  exact propext ⟨fun same => Fin.ext same.symm, fun same => same ▸ rfl⟩

/-- The invariant speaks neither of the queue nor of the reset pin. -/
theorem inv_withQueue {s : State} (h : s.Inv) (q : List Instr) (low : Bool) :
    State.Inv { s with pending := q, resetLow := low } := by
  obtain ⟨⟨notice, port, count, letters, feed, stall, table⟩, load⟩ := (inv_iff s).1 h
  exact (inv_iff _).2 ⟨⟨notice.congr rfl rfl rfl, port.congr rfl rfl rfl,
    count.congr (le_refl _) rfl rfl, letters, feed, stall, table⟩, loadRight_congr load rfl rfl id id⟩

theorem resetBlocks_inv (cb : BitVec 4) (cm : MasterNo) (s : State) : (resetBlocks cb cm s).Inv := by
  have transit : (resetBlocks cb cm s).transitCount = 0 := rfl
  have sum : (resetBlocks cb cm s).occupancySum = 0 := rfl
  refine (inv_iff _).2 ⟨⟨⟨Nat.zero_le _, Nat.zero_le _, fun writing => absurd rfl writing, fun _ => rfl⟩,
    ⟨Nat.zero_le _, Nat.zero_le _, fun _ => rfl⟩, ?_, ⟨fun _ hl => absurd hl List.not_mem_nil, List.nodup_nil⟩, ?_, ?_, ?_⟩, ?_⟩
  · refine ⟨?_, ?_, ?_, ?_⟩
    · rw [transit]
      exact Nat.zero_le _
    · rw [sum]
      exact Nat.zero_le _
    · rw [sum]
      exact fun set => absurd set (by decide)
    · exact fun _ => rfl
  · simp [FeedRight, resetBlocks, State.resetWith, State.holdLevel, State.holdLine, Transport.reset]
  · simp [StallRight, resetBlocks, State.resetWith, State.stallWatched, Transport.reset]
  · refine ⟨fun p => ?_, fun p zero rest => ?_, fun p t drains => ?_⟩
    · rw [show (resetBlocks cb cm s).pocket p = _ from resetWith_pocket cb cm p]
      split <;> rfl
    · rw [show (resetBlocks cb cm s).pocket p = _ from resetWith_pocket cb cm p]
      split <;> rfl
    · rw [show (resetBlocks cb cm s).pocket p = _ from resetWith_pocket cb cm p] at drains
      split at drains <;> cases drains
  · exact ⟨by simp [resetBlocks, State.resetWith, Plan.reset], rfl,
      fun _ _ hl => absurd hl List.not_mem_nil,
      fun _ load => absurd load (by simp [resetBlocks, State.resetWith, Plan.reset])⟩

theorem resetAssert_inv (s : State) : (resetAssert s).Inv :=
  inv_withQueue (resetBlocks_inv s.cb s.master s) s.pending true

/-- Every command but a grant keeps the invariant. -/
theorem effect_inv {c : Instr} (other : c ≠ .arbiterGrant) {s : State} (h : s.Inv) :
    (effect c s).Inv := by
  cases c with
  | arbiterGrant => exact absurd rfl other
  | resetAssert => exact resetAssert_inv s
  | resetRelease cb cm => exact resetBlocks_inv cb cm s
  | encAdvance => exact encAdvance_inv h
  | stallExpiry => exact stallExpiry_inv h
  | lostExpiry => exact lostExpiry_inv h
  | decideExpiry => exact decideExpiry_inv h
  | backplaneAccess a => exact backplaneAccess_inv a h
  | gateDispatch slot => exact gateDispatch_inv slot h
  | passthroughDone answer => exact passthroughDone_inv answer h
  | inductionRingWrite offset data enables => exact inductionRingWrite_inv offset data enables h
  | stationRingWrite st offset data enables => exact stationRingWrite_inv st offset data enables h
  | drainComplete p => exact drainComplete_inv p h
  | planReadDone answer => exact planReadDone_inv answer h
  | chainDescReadDone answer => exact (chainDescReadDone_quiet answer s).inv h
  | chainRereadDone answer => exact (chainRereadDone_quiet answer s).inv h
  | chainRecordWordDone answer => exact chainRecordWordDone_inv answer h
  | chainCompletionDone answer => exact (chainCompletionDone_quiet answer s).inv h
  | noticeWordWriteDone answer => exact (noticeWordWriteDone_quiet answer s).inv h
  | badCommand w enables => exact badCommand_inv w enables h
  | noticeConsumerIndex data enables => exact (noticeConsumerIndex_quiet data enables s).inv h
  | chainBasePointer data enables => exact (chainBasePointer_quiet data enables s).inv h
  | chainLastPointer data enables => exact (chainLastPointer_quiet data enables s).inv h
  | _ =>
    simp only [effect]
    exact runCommand_inv _ h

theorem effect_blocks (c : Instr) {s : State} (h : s.Inv) : BlocksRight (effect c s) := by
  by_cases grant : c = .arbiterGrant
  · exact grant ▸ arbiterGrant_blocks (blocksRight_of_inv h)
  · exact blocksRight_of_inv (effect_inv grant h)

theorem step_blocks {s t : State} (h : s.Inv) (stepped : step s = .next t) : BlocksRight t := by
  unfold step at stepped
  split at stepped
  · rw [← effect_of_exec stepped]
    exact effect_blocks _ (inv_withQueue h _ _)
  · cases stepped
    exact blocksRight_of_inv (refclkEdge_inv h)

/-- Settles O54: the reset values satisfy the invariants, as they do after every release. -/
theorem invariantsHoldAtReset : Obligations.InvariantsHoldAtReset :=
  resetBlocks_inv Config.resetCB Config.resetCM State.reset

/-- Settles O56: every command but a grant keeps the whole invariant, and a grant writes nothing the outputs follow. -/
theorem stepsKeepOutputs : Obligations.StepsKeepOutputs :=
  ⟨⟨rfl, rfl⟩, fun _ _ h stepped => (step_blocks h stepped).outputs⟩

/-- Settles O57: as O56. -/
theorem stepsKeepLoad : Obligations.StepsKeepLoad :=
  fun _ _ h stepped => (step_blocks h stepped).load

/-- Settles O58: as O56. -/
theorem stepsKeepPockets : Obligations.StepsKeepPockets :=
  fun _ _ h stepped => (step_blocks h stepped).pockets

/-! ### The limits of the chain engine (O55) -/

/-- Both requesters hold a descriptor read of the chain engine: the invariant allows it while the port is free. -/
def strayRequest : State :=
  { State.reset with
    pending := [.arbiterGrant]
    noticeReq := ⟨some ⟨.chainDesc, ownRead 0⟩, 0⟩
    chainReq := ⟨some ⟨.chainDesc, ownRead 0⟩, 0⟩ }

theorem strayRequest_inv : strayRequest.Inv := by
  obtain ⟨⟨notice, port, count, letters, feed, stall, table⟩, load⟩ :=
    (inv_iff _).1 invariantsHoldAtReset
  exact (inv_iff _).2 ⟨⟨⟨notice.fifo, Nat.zero_le _, notice.ring, notice.attn⟩,
    ⟨Nat.zero_le _, Nat.zero_le _, nofun⟩, count.congr (le_refl _) rfl rfl, letters, feed, stall,
    table⟩, loadRight_congr load rfl rfl id id⟩

/-- Refutes O55: the invariant does not say which unit a pending request serves, so a grant to the notice unit may hand memory a descriptor read while the chain engine presents its own (R145). -/
theorem not_stepsKeepLimits : ¬ Obligations.StepsKeepLimits := by
  unfold Obligations.StepsKeepLimits
  rintro ⟨-, kept⟩
  obtain ⟨bounded, -⟩ := kept strayRequest (arbiterGrant { strayRequest with pending := [] })
    strayRequest_inv rfl
  exact absurd (bounded.chain rfl) nofun

end Sys2Proof.Proofs
end

section
/-! PROOFS. The REFCLK edge and the stall monitor, resets, and the line commands (O2, O4, O5, O6, O12). -/

namespace Sys2Proof.Proofs

open Sys2Proof Sys2Proof.Machine Sys2Proof.Laws

/-! ### The stall monitor (R51, R52) -/

theorem stallEdges_eq (s : State) :
    s.stallEdges = (s.plan.layout.map fun l => 10000 * l.stallTimeout).getD 0 := by
  unfold State.stallEdges
  cases s.plan.layout <;> rfl

theorem stallWatched_iff (s : State) :
    s.stallWatched = true ↔ s.transport.line = .running ∧ s.transit.letters ≠ [] := by
  simp [State.stallWatched]

theorem step_of_empty {s : State} (empty : s.pending = []) : step s = .next (refclkEdge s) := by
  unfold step
  rw [empty]

theorem exec_stallExpiry {s : State} {n : Nat} (stall : s.transport.stall = some n) :
    exec .stallExpiry s = .next (stallExpired s) := by
  simp [exec, execStallExpiry, stallExpiry, stall]

/-- What an expiry leaves of the monitor's count is nothing. -/
theorem stallExpired_count (s : State) (x : Option Nat) :
    stallExpired { s with transport := { s.transport with stall := x } } = stallExpired s := rfl

theorem run_of_step (M : Host.Core) {s t : M.State} (k : Nat) (first : M.step s = .next t) :
    M.run (k + 1) s = M.run k t := by
  simp only [Host.Core.run, first]

/-- The edges up to the timeout's last one expire the monitor. -/
theorem run_edges (k : Nat) {s : State} {n : Nat} (empty : s.pending = [])
    (stall : s.transport.stall = some n) (before : n < s.stallEdges)
    (rest : s.stallEdges - n = k) : Host.Core.run Sys2Proof.core k s = .next (stallExpired s) := by
  induction k generalizing s n with
  | zero => omega
  | succ k ih =>
    refine (run_of_step Sys2Proof.core k (step_of_empty empty)).trans ?_
    simp only [refclkEdge, stall]
    by_cases last : s.stallEdges ≤ n + 1
    · obtain rfl : k = 0 := by omega
      rw [if_pos last]
      rfl
    · rw [if_neg last, ← stallExpired_count s (some (n + 1))]
      exact ih empty rfl (Nat.lt_of_not_le last) (by
        change s.stallEdges - (n + 1) = k
        omega)

theorem stallExpired_transport (s : State) : (stallExpired s).transport =
    { s.transport with line := .stalled, stall := none, feedHold := true } := by
  simp [stallExpired, State.holdLevel, State.holdLine]

theorem stallExpired_raised (s : State) : s.Raised (stallExpired s)
    (⟨.lineState, 0#8, 2#4, 3#4, BitVec.ofNat 16 s.transport.line.code, 0#32, 0#24⟩ ::
      if s.transport.feedHold then [] else [(stallExpired s).feedHoldNotice]) := by
  have raised := (setLine_raised .stalled .stall
    { s with transport := { s.transport with stall := none } }).congr_left (s' := s) rfl rfl rfl rfl
  have level : (stallExpired s).transport.feedHold = true := by rw [stallExpired_transport]
  have same : (true = s.transport.feedHold) ↔ s.transport.feedHold = true := eq_comm
  rw [show setLine .stalled .stall { s with transport := { s.transport with stall := none } } =
    stallExpired s from rfl, level] at raised
  simp only [same] at raised
  exact raised

/-- Settles O2: the edges by induction on how many remain; the expiry by the laws of a change of the line state. -/
theorem stallMonitorCountsAndExpires : Obligations.StallMonitorCountsAndExpires := by
  refine ⟨stallEdges_eq, stallWatched_iff, fun s empty => ⟨fun stall => ?_, fun n stall before => ?_,
    fun n stall last => ?_, fun n stall before => ?_⟩, fun s runs => ?_⟩
  · rw [step_of_empty empty, refclkEdge, stall]
  · rw [step_of_empty empty]
    simp only [refclkEdge, stall]
    rw [if_neg (Nat.not_le.2 before)]
  · rw [step_of_empty empty, exec_stallExpiry stall]
    simp only [refclkEdge, stall]
    rw [if_pos last]
  · rw [exec_stallExpiry stall]
    exact run_edges _ empty stall before rfl
  · obtain ⟨n, stall⟩ := Option.isSome_iff_exists.1 runs
    refine ⟨stallExpired s, exec_stallExpiry stall, stallExpired_transport s, stallExpired_raised s,
      ?_⟩
    apply State.eq_of_fields <;> simp [stallExpired]

/-! ### Resets (R22, R23) -/

/-- Settles O4: the reset values, register by register. -/
theorem resetState : Obligations.ResetState := by
  have pocket (p : PocketIx) : State.reset.pocket p =
      ⟨none, 0, none, if p = 0 then .opened else .disabled, 0, 0, 0#16⟩ := by
    rw [show State.reset.pocket p = _ from resetWith_pocket _ _ p]
    split <;> rfl
  have station (st : StationIx) :
      State.reset.station st = ⟨.off, .expected, .seek, 0, 0, none, 0⟩ := by
    simp [State.station, State.reset, State.resetWith, Station.reset]
  refine ⟨rfl, rfl, rfl, rfl, rfl, rfl, rfl, rfl, rfl, rfl, rfl, rfl, rfl, station, pocket, ?_⟩
  exact ⟨rfl, rfl, rfl, rfl, rfl, rfl, rfl, rfl, rfl, rfl, rfl, rfl, rfl, rfl, rfl, rfl, rfl, rfl,
    rfl, rfl⟩

/-- An access not yet forwarded is answered ERROR by a reset (R22, 2). -/
theorem responseAtReset_ungranted {b : Backplane} {f : Forwarded} (busy : b.busy = some f)
    (waiting : f.granted = false) : responseAtReset b = some ⟨f.access.master, none⟩ := by
  simp [responseAtReset, busy, waiting]

/-- No other access is answered by a reset. -/
theorem responseAtReset_granted {b : Backplane}
    (granted : ∀ f, b.busy = some f → f.granted = true) : responseAtReset b = b.response := by
  unfold responseAtReset
  split
  case h_1 f busy => rw [if_pos (granted f busy)]
  case h_2 => rfl

/-- Settles O5: every block is the one of State.reset; the port and the answer by their two cases. -/
theorem resetAssertAndRelease : Obligations.ResetAssertAndRelease := by
  refine ⟨fun s => ⟨resetAssert s, rfl, rfl, rfl, rfl, rfl, rfl, rfl, rfl, rfl, rfl,
    fun f busy waiting => responseAtReset_ungranted busy waiting,
    fun granted => responseAtReset_granted granted, rfl, rfl, rfl, rfl, rfl, rfl, rfl, rfl, rfl, rfl⟩,
    fun cb cm s => ⟨resetRelease cb cm s, rfl, rfl, rfl, rfl, ?_, rfl, rfl, rfl,
      fun f busy waiting => responseAtReset_ungranted busy waiting,
      fun granted => responseAtReset_granted granted, rfl⟩⟩
  rfl

/-! ### While RESET_N is low (R22, R46) -/

theorem whenIdle_of_resetLow {s : State} (low : s.resetLow = true) (c : Command)
    (own : State → State) : whenIdle c own s = s := if_pos low

theorem runCommand_of_resetLow {s : State} (low : s.resetLow = true) (c : Command) :
    runCommand c s = s := by
  cases c with
  | loadAbort => exact if_pos low
  | pocketOpen p | pocketDisable p | pocketEnable p =>
    simp only [runCommand, commandPocketOpen, commandPocketDisable, commandPocketEnable]
    exact whenIdle_of_resetLow low _ _
  | stationEnable st | stationDisable st | stationRestart st =>
    simp only [runCommand, commandStationEnable, commandStationDisable, commandStationRestart]
    exact whenIdle_of_resetLow low _ _
  | _ =>
    simp only [runCommand]
    exact whenIdle_of_resetLow low _ _

/-- Settles O6: every meaning tests the reset pin first. -/
theorem nothingActsWhileResetLow : Obligations.NothingActsWhileResetLow := by
  intro s low
  have left {c : Instr} (h : effect c s = s) : exec c s = .next s := by rw [exec_eq, h]
  refine ⟨left (if_pos low), left (if_pos low), left (if_pos low), left ?_, fun a => left ?_,
    fun slot => left ?_, fun o d e => left ?_, fun st o d e => left ?_, fun p => left (if_pos low),
    fun c => ?_, fun w e => left (if_pos low), fun d e => left (if_pos low), fun d e => left ?_,
    fun d e => left ?_⟩
  · simp [effect, arbiterGrant, low]
  · simp [effect, backplaneAccess, low]
  · simp [effect, gateDispatch, low]
  · simp [effect, inductionRingWrite, low]
  · simp [effect, stationRingWrite, low]
  · rw [exec_instr, runCommand_of_resetLow low]
  · simp [effect, chainBasePointer, low]
  · simp [effect, chainLastPointer, low]

/-! ### The line commands (R54, R55) -/

theorem ready_exec {s t : State} {c : Command} (h : runCommand c s = t) :
    exec c.instr s = .next t := by rw [exec_instr, h]

theorem commandStart_of_ready {s : State} (ready : s.Ready) (line : s.transport.line = .stopped)
    (plan : s.plan.state = .valid) : commandStart s = startLine s := by
  rw [commandStart, whenIdle_of_ready ready, line, plan]

theorem commandStop_of_ready {s : State} (ready : s.Ready) :
    commandStop s = ackTaken .stop 0#32 (if s.transport.line = .stopped then s else stopLine s) := by
  rw [commandStop, whenIdle_of_ready ready]
  cases line : s.transport.line <;> rfl

/-- The FEED_HOLD notice speaks of the line, the latch, the layout and pocket 0 alone. -/
theorem feedHoldNotice_same {s t : State}
    (line : t.transport.line = s.transport.line := by simp)
    (latch : t.transport.occupancy = s.transport.occupancy := by simp)
    (layout : t.plan.layout = s.plan.layout := by simp) (pockets : t.pockets = s.pockets := by simp) :
    t.feedHoldNotice = s.feedHoldNotice := (State.hold_congr line latch layout pockets).2.2

/-- The acknowledgment of a command that left the command unit and the sweep alone. -/
theorem takenTo_ackTaken {s t : State} (c : Command) (arg : Word) (cmd : t.cmd = s.cmd := by simp)
    (sweep : t.sweep = s.sweep := by simp) : s.TakenTo (ackTaken c arg t) c arg := by
  refine ⟨?_, ackTaken_sweep c arg t⟩
  rw [ackTaken_cmd, cmd, State.sweepOpen, sweep]
  rfl

theorem stopLine_transport (s : State) : (stopLine s).transport =
    { s.transport with line := .stopped, stall := none, feedHold := true } := by
  simp [stopLine, State.holdLevel, State.holdLine]

theorem stopLine_raised (s : State) : s.Raised (stopLine s)
    (⟨.lineState, 0#8, 0#4, 2#4, BitVec.ofNat 16 s.transport.line.code, 0#32, 0#24⟩ ::
      if s.transport.feedHold then [] else [(stopLine s).feedHoldNotice]) := by
  have raised := (setLine_raised .stopped .stop
    { s with transport := { s.transport with stall := none } }).congr_left (s' := s) rfl rfl rfl rfl
  have level : (stopLine s).transport.feedHold = true := by rw [stopLine_transport]
  have same : (true = s.transport.feedHold) ↔ s.transport.feedHold = true := eq_comm
  rw [show setLine .stopped .stop { s with transport := { s.transport with stall := none } } =
    stopLine s from rfl, level] at raised
  simp only [same] at raised
  exact raised

theorem startLine_transport (s : State) : (startLine s).transport = { s.transport with
    line := .running
    stall := if s.transit.letters = [] then none else some 0
    feedHold := s.transport.occupancy || s.holdReject } := by
  have level : State.holdLevel { s with transport := { s.transport with line := .running } } =
      (s.transport.occupancy || s.holdReject) := rfl
  simp [startLine, State.stallWatched, level]

theorem startLine_raised (s : State) : s.Raised (startLine s)
    ((lineNotice .running s.transport.line .start ::
      if (startLine s).transport.feedHold = s.transport.feedHold then []
      else [(startLine s).feedHoldNotice]) ++ [ackNotice (startLine s).cmd.last]) := by
  have line := setLine_raised .running .start s
  have monitor : (setLine .running .start s).Raised (restartStall (setLine .running .start s)) [] :=
    .refl rfl rfl rfl rfl
  have level : (startLine s).transport.feedHold = (setLine .running .start s).transport.feedHold := by
    simp [startLine]
  have notice : (startLine s).feedHoldNotice = (setLine .running .start s).feedHoldNotice :=
    feedHoldNotice_same (by simp [startLine]) (by simp [startLine]) (by simp [startLine])
      (by simp [startLine])
  rw [level, notice]
  have raised := (line.trans monitor).trans (ackTaken_raised .start 0#32 _)
  rwa [List.append_nil] at raised

/-- Settles O12: START and STOP are a change of the line state and an acknowledgment. -/
theorem startAndStopMoveLine : Obligations.StartAndStopMoveLine := by
  refine ⟨holdReject_eq, fun s => rfl, feedHoldNotice_eq, fun s ready line plan => ?_,
    fun s ready => ?_⟩
  · refine ⟨startLine s, ready_exec (c := .start) (commandStart_of_ready ready line plan),
      startLine_transport s, takenTo_ackTaken .start 0#32, ?_, ?_⟩
    · have raised := startLine_raised s
      rw [line] at raised
      exact raised
    · apply State.eq_of_fields <;> simp [startLine]
  · refine ⟨_, ready_exec (c := .stop) (commandStop_of_ready ready), ?_, ?_, ?_, ?_⟩
    · by_cases line : s.transport.line = .stopped
      · simp [line]
      · simp [line, stopLine_transport]
    · by_cases line : s.transport.line = .stopped
      · rw [if_pos line]
        exact takenTo_ackTaken .stop 0#32
      · rw [if_neg line]
        exact takenTo_ackTaken .stop 0#32 (by simp [stopLine]) (by simp [stopLine])
    · by_cases line : s.transport.line = .stopped
      · simp only [if_pos line]
        exact ackTaken_raised .stop 0#32 s
      · simp only [if_neg line]
        rw [feedHoldNotice_same (s := stopLine s) (t := ackTaken .stop 0#32 (stopLine s))]
        exact (stopLine_raised s).trans (ackTaken_raised .stop 0#32 (stopLine s))
    · by_cases line : s.transport.line = .stopped
      · rw [if_pos line]
        apply State.eq_of_fields <;> simp
      · rw [if_neg line]
        apply State.eq_of_fields <;> simp [stopLine]

end Sys2Proof.Proofs
end

section
/-! PROOFS. Departures: what the retire buffer, the chain engine and the notice unit take of them (O10, O13, O31). -/

namespace Sys2Proof.Proofs

open Sys2Proof Sys2Proof.Machine Sys2Proof.Laws

/-! ### The head record is begun (R148) -/

theorem beginRecord_chainReq {s : State} {r : Retired} {rest : List Retired} (k : Fin 8)
    (retire : s.retire = r :: rest) : (beginWork (.record k) s).chainReq =
      s.chainPresents .chainRecord (ownWrite (s.recordWordAddr k) (r.record.word k)) := by
  simp only [beginWork, presentWork, retire]
  rfl

/-- A FILLING engine without work (R148). -/
def waitsForRecord (s : State) : Prop := s.chain.state = .filling ∧ s.chain.work = .none

theorem headBegun_of_waits {s t : State} (waits : waitsForRecord s) : s.HeadBegun t ↔
    t.chain = { s.chain with work := .record 0 } ∧
    ∃ r rest, t.retire = r :: rest ∧ t.chainReq = s.chainPresents .chainRecord
      ⟨s.chain.area + BitVec.ofNat 32 (32 * s.chain.count), .write (r.record.word 0) 0xF#4⟩ :=
  iff_of_eq (if_pos waits)

theorem headBegun_of_busy {s t : State} (busy : ¬waitsForRecord s) : s.HeadBegun t ↔
    t.chain = s.chain ∧ t.chainReq = s.chainReq := iff_of_eq (if_neg busy)

/-- A record joins, and the engine that waited for one begins the head of the buffer. -/
theorem retireRecord_headBegun (d : Disposition) (s : State) : s.HeadBegun (retireRecord d s) := by
  have joined : s.retire ++ [⟨d, false⟩] ≠ [] := by simp
  by_cases waits : waitsForRecord s
  · obtain ⟨r, rest, head⟩ := List.exists_cons_of_ne_nil joined
    have pumped : retireRecord d s =
        beginWork (.record 0) { s with retire := s.retire ++ [⟨d, false⟩] } := by
      rw [retireRecord, chainPump, if_pos ⟨waits.1, waits.2, joined⟩]
    rw [headBegun_of_waits waits, pumped]
    refine ⟨by simp, r, rest, by simp [head], ?_⟩
    rw [beginRecord_chainReq 0 head]
    rfl
  · have pumped : retireRecord d s = { s with retire := s.retire ++ [⟨d, false⟩] } := by
      rw [retireRecord, chainPump, if_neg fun begins => waits ⟨begins.1, begins.2.1⟩]
    rw [headBegun_of_busy waits, pumped]
    exact ⟨rfl, rfl⟩

theorem head_of_records {ys : List Disposition} {s t : State} {r : Retired} {rest : List Retired}
    (head : s.retire = r :: rest) (records : t.records = s.records ++ ys) :
    ∃ x xs, t.retire = x :: xs ∧ x.record = r.record := by
  rw [State.records, State.records, head] at records
  obtain ⟨x, xs, head', same, -⟩ := List.map_eq_cons_iff.1 records
  exact ⟨x, xs, head', same⟩

theorem headBegun_congr {s t u : State} (h : s.HeadBegun t) (chain : u.chain = t.chain := by simp)
    (chainReq : u.chainReq = t.chainReq := by simp) (records : u.records = t.records := by simp) :
    s.HeadBegun u := by
  by_cases waits : waitsForRecord s
  · rw [headBegun_of_waits waits] at h ⊢
    obtain ⟨begun, r, rest, head, presented⟩ := h
    obtain ⟨x, xs, head', same⟩ := head_of_records (ys := []) head (records.trans (by simp))
    exact ⟨chain.trans begun, x, xs, head', same ▸ chainReq.trans presented⟩
  · rw [headBegun_of_busy waits] at h ⊢
    exact ⟨chain.trans h.1, chainReq.trans h.2⟩

theorem headBegun_congr_left {s s' t : State} (h : s.HeadBegun t)
    (chain : s'.chain = s.chain := by simp) (chainReq : s'.chainReq = s.chainReq := by simp)
    (port : s'.port = s.port := by simp) : s'.HeadBegun t := by
  unfold State.HeadBegun State.chainPresents State.atMemory at h ⊢
  rw [chain, chainReq, port]
  exact h

/-- Once the head record is begun, records that join behind it change nothing of it. -/
theorem headBegun_trans {s t u : State} (h : s.HeadBegun t) (later : t.HeadBegun u)
    (records : ∃ new, u.records = t.records ++ new) : s.HeadBegun u := by
  obtain ⟨new, records⟩ := records
  by_cases waits : waitsForRecord s
  · rw [headBegun_of_waits waits] at h ⊢
    obtain ⟨begun, r, rest, head, presented⟩ := h
    obtain ⟨chain, chainReq⟩ := (headBegun_of_busy (by simp [waitsForRecord, begun])).1 later
    obtain ⟨x, xs, head', same⟩ := head_of_records head records
    exact ⟨chain.trans begun, x, xs, head', same ▸ chainReq.trans presented⟩
  · rw [headBegun_of_busy waits] at h ⊢
    obtain ⟨chain, chainReq⟩ := h
    obtain ⟨chain', chainReq'⟩ :=
      (headBegun_of_busy (s := t) (by rw [waitsForRecord, chain]; exact waits)).1 later
    exact ⟨chain'.trans chain, chainReq'.trans chainReq⟩

/-! ### A batch record (R133, R142) -/

theorem modifyLast_append {α : Type} (f : α → α) (xs : List α) (x : α) :
    modifyLast f (xs ++ [x]) = xs ++ [f x] := by
  induction xs with
  | nil => rfl
  | cons y ys ih =>
    cases ys with
    | nil => rfl
    | cons z zs => exact congrArg (y :: ·) ih

theorem batchToChain_of_append {s : State} {rest : List Retired} {r : Retired}
    (retire : s.retire = rest ++ [r]) :
    batchToChain s = { s with retire := rest ++ [{ r with boundary := true }] } := by
  unfold batchToChain
  split
  case h_1 x xs head => rw [retire, modifyLast_append]
  case h_2 empty => simp [retire] at empty

theorem endDescriptor_chain (e : EndCause) (s : State) : (endDescriptor e s).chain =
    { s.chain with work := .completion e, pendingFlush := false } := by
  simp [endDescriptor]

theorem endDescriptor_chainReq (e : EndCause) (s : State) : (endDescriptor e s).chainReq =
    s.chainPresents .chainCompletion ⟨s.chain.descAddr + 12#32,
      .write (completionWord false e s.chain.count) 0xF#4⟩ := rfl

/-- The engine fills a BATCH_CLOSE descriptor that holds records, and has no work (R142). -/
def batchCloses (s : State) : Prop :=
  s.chain.state = .filling ∧ 0 < s.chain.count ∧ s.chain.work = .none ∧
    bitAt s.chain.control 18 = true

theorem batchToChain_of_closes {s : State} (empty : s.retire = []) (closes : batchCloses s) :
    batchToChain s = endDescriptor .batch s := by
  unfold batchToChain
  split
  case h_1 head => simp [empty] at head
  case h_2 => exact if_pos closes

theorem batchToChain_of_stays {s : State} (empty : s.retire = []) (stays : ¬batchCloses s) :
    batchToChain s = s := by
  unfold batchToChain
  split
  case h_1 head => simp [empty] at head
  case h_2 => exact if_neg stays

theorem batchHanded_iff (s t : State) : s.BatchHanded t ↔
    (∀ rest r, s.retire = rest ++ [r] → t.retire = rest ++ [{ r with boundary := true }] ∧
      t.chain = s.chain ∧ t.chainReq = s.chainReq) ∧
    (s.retire = [] → t.retire = [] ∧
      (batchCloses s → t.chain = { s.chain with work := .completion .batch, pendingFlush := false } ∧
        t.chainReq = s.chainPresents .chainCompletion ⟨s.chain.descAddr + 12#32,
          .write (completionWord false .batch s.chain.count) 0xF#4⟩) ∧
      (¬batchCloses s → t.chain = s.chain ∧ t.chainReq = s.chainReq)) := by
  unfold State.BatchHanded batchCloses
  refine and_congr_right fun _ => imp_congr_right fun _ => and_congr_right fun _ => ?_
  by_cases closes : s.chain.state = .filling ∧ 0 < s.chain.count ∧ s.chain.work = .none ∧
      bitAt s.chain.control 18 = true
  · rw [if_pos closes]
    exact ⟨fun h => ⟨fun _ => h, absurd closes⟩, fun h => h.1 closes⟩
  · rw [if_neg closes]
    exact ⟨fun h => ⟨fun c => absurd c closes, fun _ => h⟩, fun h => h.2 closes⟩

theorem batchToChain_handed (s : State) : s.BatchHanded (batchToChain s) := by
  refine (batchHanded_iff _ _).2 ⟨fun rest r retire => ?_, fun empty => ⟨?_, fun closes => ?_,
    fun stays => ?_⟩⟩
  · rw [batchToChain_of_append retire]
    exact ⟨rfl, rfl, rfl⟩
  · have records := batchToChain_records s
    rw [State.records, State.records, empty] at records
    exact List.map_eq_nil_iff.1 records
  · rw [batchToChain_of_closes empty closes]
    exact ⟨endDescriptor_chain _ _, endDescriptor_chainReq _ _⟩
  · rw [batchToChain_of_stays empty stays]
    exact ⟨rfl, rfl⟩

theorem batchHanded_congr {s t u : State} (h : s.BatchHanded t) (retire : u.retire = t.retire := by simp)
    (chain : u.chain = t.chain := by simp) (chainReq : u.chainReq = t.chainReq := by simp) :
    s.BatchHanded u := by
  unfold State.BatchHanded at h ⊢
  rw [retire, chain, chainReq]
  exact h

theorem batchHanded_congr_left {s s' t : State} (h : s.BatchHanded t)
    (retire : s'.retire = s.retire := by simp) (chain : s'.chain = s.chain := by simp)
    (chainReq : s'.chainReq = s.chainReq := by simp) (port : s'.port = s.port := by simp) :
    s'.BatchHanded t := by
  unfold State.BatchHanded State.chainPresents State.atMemory at h ⊢
  rw [retire, chain, chainReq, port]
  exact h

/-- What a batch's end raises. -/
theorem batchEnd_eq (p : PocketIx) (s : State) :
    batchEnd p s = batchToChain (raise (s.closedNotice p) s) := rfl

theorem batchEnd_handed (p : PocketIx) (s : State) : s.BatchHanded (batchEnd p s) :=
  batchHanded_congr_left (batchToChain_handed _)

theorem batchToChain_raised (s : State) : s.Raised (batchToChain s) [] :=
  .refl (by simp) (by simp) (by simp) (by simp)

theorem batchEnd_raised (p : PocketIx) (s : State) :
    s.Raised (batchEnd p s) [s.closedNotice p] := by
  have raised := (raise_raised (s.closedNotice p) s).trans (batchToChain_raised _)
  rwa [List.append_nil] at raised

theorem closedNotice_same {s t : State} {p : PocketIx}
    (state : (t.pocket p).state = (s.pocket p).state) (batch : (t.pocket p).batch = (s.pocket p).batch)
    (fill : (t.pocket p).fill = (s.pocket p).fill) : t.closedNotice p = s.closedNotice p := by
  rw [State.closedNotice, State.closedNotice, state, batch, fill]

theorem closedNotice_congr {s t : State} (pockets : t.pockets = s.pockets := by simp) (p : PocketIx) :
    t.closedNotice p = s.closedNotice p := by
  have pocket := pocket_congr (s := t) (t := s) pockets p
  exact closedNotice_same (by rw [pocket]) (by rw [pocket]) (by rw [pocket])

/-! ### Departures (R118, R132) -/

theorem drained_of_rest {x : PocketState} (rest : ∀ t, x ≠ .draining t) : x.drained = x := by
  cases x with
  | draining t => exact absurd rfl (rest t)
  | disabled | opened | closed => rfl

theorem drained_draining (t : DrainTarget) : (PocketState.draining t).drained = t.state := by
  cases t <;> rfl

theorem drained_ne_draining (t : DrainTarget) : t.state ≠ .draining t := by cases t <;> simp [DrainTarget.state]

theorem releaseReservation_cases (p : PocketIx) (s : State) :
    ((s.pocket p).released.state = (s.pocket p).state ∧
      ∃ x, releaseReservation p s = s.setPocket p x) ∨
    ((s.pocket p).released.state ≠ (s.pocket p).state ∧
      ∃ x, releaseReservation p s = batchEnd p (s.setPocket p x)) := by
  have fallen : (s.setPocket p { s.pocket p with inFlight := (s.pocket p).inFlight - 1 }).pocket p =
      { s.pocket p with inFlight := (s.pocket p).inFlight - 1 } := by simp
  unfold releaseReservation drainIfEmpty
  rw [fallen]
  simp only [Pocket.released]
  cases state : (s.pocket p).state with
  | draining t =>
    simp only
    by_cases last : (s.pocket p).inFlight ≤ 1
    · refine .inr ⟨?_, ?_⟩
      · rw [if_pos last, drained_draining]
        exact drained_ne_draining t
      · rw [if_pos (by omega)]
        exact ⟨{ s.pocket p with inFlight := (s.pocket p).inFlight - 1, state := t.state },
          by simp [closeBatch, State.setPocket, State.pocket]⟩
    · exact .inl ⟨if_neg last, _, if_neg (by omega)⟩
  | disabled | opened | closed => exact .inl ⟨by simp [PocketState.drained], _, rfl⟩

/-- The departure of `l` completes a drain, or none; the pocket table is all that changes besides. -/
theorem releaseLetter_cases (l : Letter) (s : State) :
    (s.drainedBy l = [] ∧ ∃ pk, releaseLetter l s = { s with pockets := pk }) ∨
    ∃ p pk, s.drainedBy l = [p] ∧ releaseLetter l s = batchEnd p { s with pockets := pk } := by
  unfold releaseLetter State.drainedBy Letter.decision
  cases l.state with
  | decided d =>
    rcases releaseReservation_cases d.final s with ⟨same, x, released⟩ | ⟨drained, x, released⟩
    · exact .inl ⟨if_pos same, _, released⟩
    · exact .inr ⟨d.final, _, if_neg drained, released⟩
  | collecting | awaitPlan => exact .inl ⟨rfl, _, rfl⟩

theorem drainedBy_congr {s t : State} (pockets : t.pockets = s.pockets) (l : Letter) :
    t.drainedBy l = s.drainedBy l := by
  have pocket := fun p => pocket_congr (s := t) (t := s) pockets p
  unfold State.drainedBy
  simp only [pocket]

/-- A departure: the record with its mark, the begun head, and the notice of a drain that it completes (R118, R132, R133, R148). -/
structure Departed (o : DispositionOutcome) (l : Letter) (s t : State) : Prop where
  retire : t.retire = s.retire ++ [⟨s.disposition o l, !(s.drainedBy l).isEmpty⟩]
  begun  : s.HeadBegun t
  raised : s.Raised t ((s.drainedBy l).map t.closedNotice)

theorem retireRecord_raised (d : Disposition) (s : State) : s.Raised (retireRecord d s) [] :=
  .refl (by simp) (by simp) (by simp) (by simp)

theorem depart_departed (o : DispositionOutcome) (l : Letter) (s : State) :
    Departed o l s (depart o l s) := by
  have joined := retireRecord_retire (s.disposition o l) s
  have begun := retireRecord_headBegun (s.disposition o l) s
  have raised := retireRecord_raised (s.disposition o l) s
  have same : (retireRecord (s.disposition o l) s).drainedBy l = s.drainedBy l :=
    drainedBy_congr (by simp) l
  unfold depart
  generalize retireRecord (s.disposition o l) s = u at *
  have stopped (v : State) : v.Raised (stopStallIfEmpty v) [] :=
    .refl (by simp) (by simp) (by simp) (by simp)
  rcases releaseLetter_cases l u with ⟨none, pk, released⟩ | ⟨p, pk, drained, released⟩
  · rw [released]
    rw [same] at none
    refine ⟨?_, headBegun_congr begun (by simp) (by simp) (State.records_congr (by simp)), ?_⟩
    · rw [none]
      simpa using joined
    · rw [none]
      exact raised.trans (.refl (by simp) (by simp) (by simp) (by simp))
  · rw [released]
    rw [same] at drained
    have ended : (batchEnd p { u with pockets := pk }).retire =
        s.retire ++ [⟨s.disposition o l, true⟩] := by
      have last : (raise (State.closedNotice { u with pockets := pk } p)
          { u with pockets := pk }).retire = s.retire ++ [⟨s.disposition o l, false⟩] := by
        simpa using joined
      rw [batchEnd_eq, batchToChain_of_append last]
    have kept : ∀ rest r, u.retire = rest ++ [r] →
        (batchEnd p { u with pockets := pk }).chain = u.chain ∧
        (batchEnd p { u with pockets := pk }).chainReq = u.chainReq := fun rest r last =>
      ((batchEnd_handed p { u with pockets := pk }).1 rest r last).2
    obtain ⟨chain, chainReq⟩ := kept _ _ joined
    refine ⟨?_, headBegun_congr begun (by simpa using chain) (by simpa using chainReq) ?_, ?_⟩
    · rw [drained]
      simpa using ended
    · rw [State.records_congr (t := batchEnd p { u with pockets := pk }) (by simp), batchEnd_records]
      rfl
    · rw [drained, List.map_singleton, closedNotice_congr (s := { u with pockets := pk })]
      have closed := (raised.trans ((batchEnd_raised p { u with pockets := pk }).congr_left (s' := u)
        rfl rfl rfl rfl)).trans (stopped _)
      simpa using closed

/-- The same departure, told of a state with the same registers but for the list. -/
theorem departed_setLetters (o : DispositionOutcome) (l : Letter) (ls : List Letter) (s : State) :
    Departed o l s (depart o l (s.setLetters ls)) := by
  obtain ⟨retire, begun, raised⟩ := depart_departed o l (s.setLetters ls)
  have drained := drainedBy_congr (s := s) (t := s.setLetters ls) rfl l
  have record : (s.setLetters ls).disposition o l = s.disposition o l :=
    disposition_congr o l rfl fun _ => rfl
  rw [drained] at retire raised
  rw [record] at retire
  exact ⟨retire, headBegun_congr_left begun, raised.congr_left rfl rfl rfl rfl⟩

/-! ### LOST_EXPIRY (R50) -/

theorem lostExpiry_of_reached {s : State} {l : Letter} {rest : List Letter}
    (released : s.resetLow = false) (letters : s.transit.letters = l :: rest)
    (reached : s.lostReached l = true) : lostExpiry s = expireLost l rest s := by
  simp [lostExpiry, released, letters, reached]

/-- The LETTER_LOST notice of a letter (R50, R119). -/
def lostNotice (l : Letter) : Notice :=
  { kind := .letterLost, cause := l.state.lostCode, arg16 := l.tag, arg32 := l.lostArg }

theorem lostNotice_eq (l : Letter) : lostNotice l =
    ⟨.letterLost, 0#8, 0#4,
      match l.state with
        | .collecting => 1#4
        | .awaitPlan => 2#4
        | .decided _ => 3#4,
      l.tag,
      match l.state with
        | .decided d => BitVec.ofNat 32 d.final.val
        | .collecting | .awaitPlan => 0xFFFFFFFF#32,
      0#24⟩ := by
  unfold lostNotice Letter.lostArg Letter.decision LetterState.lostCode
  cases l.state <;> rfl

/-- Settles O10: the expiry is a departure behind which LETTER_LOST is raised. -/
theorem lostExpiryRetiresOldestLetter : Obligations.LostExpiryRetiresOldestLetter := by
  refine fun s released => ⟨fun l rest letters reached => ?_, fun early => ?_⟩
  · obtain ⟨retire, begun, raised⟩ := departed_setLetters .lost l rest s
    refine ⟨expireLost l rest s, by rw [exec_eq, effect, lostExpiry_of_reached released letters reached],
      by simp [expireLost], ?_, fun p => ?_, by simp [expireLost], ?_, ?_, ?_⟩
    · simpa [expireLost] using retire
    · rw [expireLost, pocket_congr (t := depart .lost l (s.setLetters rest)) (by simp),
        depart_pocket_eq, pocket_congr (s := s.setLetters rest) (t := s) (by simp)]
    · exact headBegun_congr begun (by simp [expireLost]) (by simp [expireLost])
        (State.records_congr (by simp [expireLost]))
    · have closed : (expireLost l rest s).closedNotice =
          (depart .lost l (s.setLetters rest)).closedNotice :=
        funext (closedNotice_congr (by simp [expireLost]))
      rw [← closed] at raised
      have lost : s.Raised (expireLost l rest s)
          ((s.drainedBy l).map (expireLost l rest s).closedNotice ++ [lostNotice l]) :=
        raised.trans (raise_raised (lostNotice l) _)
      rw [lostNotice_eq] at lost
      exact lost
    · apply State.eq_of_fields <;> simp [expireLost]
  · rw [exec_eq, effect, lostExpiry, if_neg (by simp [released])]
    cases letters : s.transit.letters with
    | nil => rfl
    | cons l rest => simp [early l (by rw [letters]; rfl)]

/-! ### DRAIN_COMPLETE (R132) -/

theorem drainIfEmpty_of_due {s : State} {p : PocketIx} {t : DrainTarget}
    (state : (s.pocket p).state = .draining t) (empty : (s.pocket p).inFlight = 0) :
    drainIfEmpty p s = closeBatch p t.state s := by
  simp [drainIfEmpty, state, empty]

theorem drainIfEmpty_of_not_due {s : State} {p : PocketIx}
    (notDue : (s.pocket p).state = .opened ∨ (s.pocket p).state = .closed ∨
      (s.pocket p).state = .disabled ∨ 0 < (s.pocket p).inFlight) : drainIfEmpty p s = s := by
  unfold drainIfEmpty
  cases state : (s.pocket p).state with
  | draining t => exact if_neg fun empty => by simp [state, empty] at notDue
  | disabled | opened | closed => rfl

theorem closeBatch_raised (p : PocketIx) (x : PocketState) (s : State) :
    s.Raised (closeBatch p x s) [(closeBatch p x s).closedNotice p] := by
  have raised := batchEnd_raised p (s.setPocket p { s.pocket p with state := x })
  rw [← closedNotice_congr (t := closeBatch p x s) (by simp [closeBatch])] at raised
  exact raised.congr_left (by simp) (by simp) (by simp) (by simp)

theorem closeBatch_closedNotice (p : PocketIx) (x : PocketState) (s : State) :
    (closeBatch p x s).closedNotice p = ⟨.pocketClosed, BitVec.ofNat 8 p.val, BitVec.ofNat 4 x.code,
      0#4, (s.pocket p).batch, BitVec.ofNat 32 (s.pocket p).fill, 0#24⟩ := by
  rw [closedNotice_congr (s := s.setPocket p { s.pocket p with state := x }) (by simp [closeBatch])]
  simp [State.closedNotice]

theorem closeBatch_handed (p : PocketIx) (x : PocketState) (s : State) :
    s.BatchHanded (closeBatch p x s) :=
  batchHanded_congr_left (batchEnd_handed p (s.setPocket p { s.pocket p with state := x }))

theorem drained_boundary {s t : State} (handed : s.BatchHanded t) (holds : s.retire ≠ []) :
    (t.retire.getLast?.map (·.boundary)) = some true ∧ t.retire.dropLast = s.retire.dropLast ∧
      t.chain = s.chain ∧ t.chainReq = s.chainReq := by
  obtain ⟨rest, r, retire⟩ := (List.eq_nil_or_concat' s.retire).resolve_left holds
  obtain ⟨marked, chain, chainReq⟩ := handed.1 rest r retire
  simp [marked, retire, chain, chainReq]

/-- Settles O31: a drain that is due ends its pocket's batch. -/
theorem drainCompletionEndsBatch : Obligations.DrainCompletionEndsBatch := by
  refine fun s p released => ⟨fun target state empty => ?_, fun notDue => ?_⟩
  · have handed := (batchHanded_iff _ _).1 (closeBatch_handed p target.state s)
    refine ⟨closeBatch p target.state s, ?_, ?_, ?_, by simp, ?_, fun none filling count idle close => ?_,
      fun none stays => ?_, ?_⟩
    · rw [exec_eq, effect, drainComplete, if_neg (by simp [released]), drainIfEmpty_of_due state empty]
    · cases target <;> simp [DrainTarget.state]
    · have raised := closeBatch_raised p target.state s
      rw [closeBatch_closedNotice] at raised
      cases target <;> exact raised
    · exact drained_boundary (closeBatch_handed p target.state s)
    · exact (handed.2 none).2.1 ⟨filling, count, idle, close⟩
    · exact (handed.2 none).2.2 stays
    · apply State.eq_of_fields <;> simp
  · rw [exec_eq, effect, drainComplete, if_neg (by simp [released]), drainIfEmpty_of_not_due notDue]

/-! ### Pocket commands (R129 to R131) -/

theorem pocketCommandOn_of_ready {s : State} (ready : s.Ready) {p : PocketIx} (zero : p ≠ 0)
    (below : p.val < s.plan.pocketCount) (c : Command) (own : State → State) :
    pocketCommandOn c p own s = own s := by
  rw [pocketCommandOn, whenIdle_of_ready ready]
  simp [State.pocketArgBad, zero, below]

/-- A command that sets a pocket and acknowledges does nothing else. -/
theorem ackTaken_setPocket (s : State) (p : PocketIx) (x : Pocket) (c : Command) (arg : Word) :
    (ackTaken c arg (s.setPocket p x)).pockets = s.pockets.set p.val x p.isLt ∧
    s.TakenTo (ackTaken c arg (s.setPocket p x)) c arg ∧
    s.Raised (ackTaken c arg (s.setPocket p x))
      [ackNotice (ackTaken c arg (s.setPocket p x)).cmd.last] ∧
    { ackTaken c arg (s.setPocket p x) with
      pockets := s.pockets, sweep := s.sweep, cmd := s.cmd, notice := s.notice
      noticeReq := s.noticeReq } = s := by
  refine ⟨by simp, takenTo_ackTaken c arg, ?_, ?_⟩
  · exact (ackTaken_raised c arg (s.setPocket p x)).congr_left (by simp) (by simp) (by simp) (by simp)
  · apply State.eq_of_fields <;> simp

theorem plan_pocketCount_eq (s : State) :
    s.plan.pocketCount = (s.plan.layout.map Layout.pocketCount).getD 0 := by
  unfold Plan.pocketCount
  cases s.plan.layout <;> rfl

/-- Settles O30: a pocket command sets its pocket and acknowledges; only an empty OPEN pocket's batch ends. -/
theorem pocketCommandsTaken : Obligations.PocketCommandsTaken := by
  refine ⟨plan_pocketCount_eq, fun _ _ => rfl, fun s p ready zero below => ⟨?_, ?_, ?_⟩⟩
  · have batch (c : Command) : ackBatch c p (newBatch p s) = ackTaken c
        (((s.pocket p).batch + 1).setWidth 32) (newBatch p s) := by
      simp [ackBatch, newBatch]
    have taken (c : Command) (run : runCommand c s = ackBatch c p (newBatch p s)) :
        ∃ t, exec c.instr s = .next t ∧ t.pockets = s.pockets.set p.val { s.pocket p with
            state := .opened, fill := 0, batch := (s.pocket p).batch + 1 } p.isLt ∧
          s.TakenTo t c (((s.pocket p).batch + 1).setWidth 32) ∧
          s.Raised t [ackNotice t.cmd.last] ∧
          { t with
            pockets := s.pockets, sweep := s.sweep, cmd := s.cmd, notice := s.notice
            noticeReq := s.noticeReq } = s :=
      ⟨_, ready_exec (run.trans (batch c)), ackTaken_setPocket s p _ c _⟩
    rintro c (⟨rfl, state⟩ | ⟨rfl, state⟩)
    · refine taken _ ?_
      rw [runCommand, commandPocketOpen, pocketCommandOn_of_ready ready zero below, state]
    · refine taken _ ?_
      rw [runCommand, commandPocketEnable, pocketCommandOn_of_ready ready zero below, state]
  · intro opened empty
    have disabled := pocketCommandOn_of_ready ready zero below (.pocketDisable p) (disablePocket p)
    refine ⟨ackTaken (.pocketDisable p) 0#32 (closeBatch p .disabled s), ready_exec (c := .pocketDisable p) ?_,
      by simp, takenTo_ackTaken _ _, ?_, ?_, ?_, ?_⟩
    · rw [runCommand, commandPocketDisable, disabled]
      simp [disablePocket, opened, empty]
    · rw [State.records_congr (t := closeBatch p .disabled s) (by simp), closeBatch_records]
    · exact batchHanded_congr (closeBatch_handed p .disabled s)
    · have raised := (closeBatch_raised p .disabled s).trans
        (ackTaken_raised (.pocketDisable p) 0#32 (closeBatch p .disabled s))
      rw [closeBatch_closedNotice] at raised
      exact raised
    · apply State.eq_of_fields <;> simp
  · intro new arg cases
    have disabled := pocketCommandOn_of_ready ready zero below (.pocketDisable p) (disablePocket p)
    refine ⟨ackTaken (.pocketDisable p) (BitVec.ofNat 32 arg)
      (s.setPocket p { s.pocket p with state := new }), ready_exec (c := .pocketDisable p) ?_,
      ackTaken_setPocket s p _ _ _⟩
    rw [runCommand, commandPocketDisable, disabled]
    rcases cases with ⟨state, some, rfl, rfl⟩ | ⟨⟨target, state⟩, rfl, rfl⟩ | ⟨state, rfl, rfl⟩
    · simp [disablePocket, state, Nat.pos_iff_ne_zero.1 some, startDrain]
    · simp [disablePocket, state, startDrain]
    · simp [disablePocket, state]

end Sys2Proof.Proofs
end

section
/-! PROOFS. PURGE and the sweep sequence (O13, O32, O34). -/

namespace Sys2Proof.Proofs

open Sys2Proof Sys2Proof.Machine Sys2Proof.Laws

/-! ### PURGE (R120) -/

theorem drained_drained (x : PocketState) : x.drained.drained = x.drained := by
  cases x with
  | draining t => cases t <;> rfl
  | disabled | opened | closed => rfl

theorem drained_rest (x : PocketState) (t : DrainTarget) : x.drained ≠ .draining t := by
  cases x with
  | draining t => cases t <;> exact nofun
  | disabled | opened | closed => exact nofun

/-- A pocket once `n` letters that held reservations of it have left, one after another. -/
def released (n : Nat) (x : Pocket) : Pocket :=
  { x with
    inFlight := x.inFlight - n
    state := if 0 < n ∧ x.inFlight ≤ n then x.state.drained else x.state }

theorem released_zero (x : Pocket) : released 0 x = x := by simp [released]

theorem released_succ (n : Nat) (x : Pocket) : released n x.released = released (n + 1) x := by
  have state : (released n x.released).state = (released (n + 1) x).state := by
    by_cases last : x.inFlight ≤ 1
    · have all : x.inFlight ≤ n + 1 := by omega
      simp [released, Pocket.released, last, all, drained_drained]
    · have all : (0 < n ∧ x.inFlight - 1 ≤ n) ↔ x.inFlight ≤ n + 1 := by omega
      simp only [released, Pocket.released, last, if_false, all, Nat.zero_lt_succ, true_and]
  have inFlight : (released n x.released).inFlight = (released (n + 1) x).inFlight := by
    simp only [released, Pocket.released]
    omega
  calc released n x.released
      = { x with inFlight := (released n x.released).inFlight
                 state := (released n x.released).state } := rfl
    _ = released (n + 1) x := by rw [state, inFlight]; rfl

theorem purgeLetters_pocket (ls : List Letter) (s : State) (p : PocketIx) :
    (purgeLetters ls s).pocket p = released (ls.countP (Letter.reserves p)) (s.pocket p) := by
  induction ls generalizing s with
  | nil => exact (released_zero _).symm
  | cons l ls ih =>
    have here : (depart .purged l (s.setLetters ls)).pocket p =
        if l.reserves p = true then (s.pocket p).released else s.pocket p := by
      rw [depart_pocket_eq, pocket_congr (s := s.setLetters ls) (t := s) (by simp)]
    rw [purgeLetters, ih, here, List.countP_cons]
    split
    · exact released_succ _ _
    · rfl

theorem pockets_ext {s t : State} (h : ∀ p, t.pocket p = s.pocket p) : t.pockets = s.pockets :=
  Vector.ext fun i hi => h ⟨i, hi⟩

theorem releasedBy_pocket (l : Letter) (s : State) (p : PocketIx) :
    (s.releasedBy l).pocket p = if l.reserves p = true then (s.pocket p).released else s.pocket p := by
  unfold State.releasedBy Letter.reserves
  cases l.state with
  | decided d =>
    simp only [State.pocket, Fin.getElem_fin, Vector.getElem_set, beq_iff_eq]
    by_cases same : d.final = p
    · simp [same]
    · simp [same, Fin.val_inj]
  | collecting | awaitPlan => rfl

theorem drainsInTurn_congr (ls : List Letter) {s t : State} (pockets : t.pockets = s.pockets) :
    t.drainsInTurn ls = s.drainsInTurn ls := by
  induction ls generalizing s t with
  | nil => rfl
  | cons l ls ih =>
    rw [State.drainsInTurn, State.drainsInTurn, drainedBy_congr pockets]
    congr 1
    refine ih (pockets_ext fun p => ?_)
    rw [releasedBy_pocket, releasedBy_pocket, pocket_congr (s := t) (t := s) pockets]

/-- A pocket whose drain a departure completes is not DRAINING behind it. -/
theorem rest_of_drainedBy {s t : State} {o : DispositionOutcome} {l : Letter} {ls : List Letter}
    {p : PocketIx} (drained : p ∈ s.drainedBy l) (after : t = depart o l (s.setLetters ls))
    (x : DrainTarget) : (t.pocket p).state ≠ .draining x := by
  have pocket := depart_pocket_eq o l p (s.setLetters ls)
  rw [pocket_congr (s := s.setLetters ls) (t := s) (by simp)] at pocket
  unfold State.drainedBy at drained
  cases state : l.state with
  | decided d =>
    simp only [state] at drained
    split at drained
    case isTrue => simp at drained
    case isFalse changed =>
      obtain rfl := List.mem_singleton.1 drained
      have reserves : l.reserves d.final = true := by simp [Letter.reserves, state]
      rw [after, pocket, if_pos reserves]
      simp only [Pocket.released] at changed ⊢
      split at changed
      case isTrue last => rw [if_pos last]; exact drained_rest _ _
      case isFalse => exact absurd rfl changed
  | collecting | awaitPlan => simp [state] at drained

/-- PURGE's departures, one after another. -/
structure Purged (ls : List Letter) (s t : State) : Prop where
  retire : t.retire = s.retire ++ (ls.zip (s.drainsInTurn ls)).map
    fun x => ⟨s.disposition .purged x.1, !x.2.isEmpty⟩
  begun  : ls ≠ [] → s.HeadBegun t
  raised : s.Raised t ((s.drainsInTurn ls).flatten.map t.closedNotice)

theorem purgeLetters_purged (ls : List Letter) (s : State) : Purged ls s (purgeLetters ls s) := by
  induction ls generalizing s with
  | nil => exact ⟨by simp [purgeLetters, State.drainsInTurn], absurd rfl, .refl rfl rfl rfl rfl⟩
  | cons l ls ih =>
    obtain ⟨retire, begun, raised⟩ := departed_setLetters .purged l ls s
    obtain ⟨retire', begun', raised'⟩ := ih (depart .purged l (s.setLetters ls))
    have later := purgeLetters_pocket ls (depart .purged l (s.setLetters ls))
    have here (p : PocketIx) : (depart .purged l (s.setLetters ls)).pocket p =
        (s.releasedBy l).pocket p := by
      rw [depart_pocket_eq, releasedBy_pocket, pocket_congr (s := s.setLetters ls) (t := s) (by simp)]
    have drains : (depart .purged l (s.setLetters ls)).drainsInTurn ls =
        (s.releasedBy l).drainsInTurn ls := drainsInTurn_congr ls (pockets_ext here)
    have record (x : Letter) : (depart .purged l (s.setLetters ls)).disposition .purged x =
        s.disposition .purged x := by
      refine disposition_congr _ _ (by simp) fun p => ?_
      rw [here, releasedBy_pocket]
      split <;> rfl
    have closed : (s.drainedBy l).map (depart .purged l (s.setLetters ls)).closedNotice =
        (s.drainedBy l).map (purgeLetters (l :: ls) s).closedNotice := by
      refine List.map_congr_left fun p drained => (closedNotice_same ?_ ?_ ?_).symm
      · rw [purgeLetters, later]
        simp only [released]
        rw [drained_of_rest (rest_of_drainedBy drained rfl), ite_self]
      · rw [purgeLetters, later]
        rfl
      · rw [purgeLetters, later]
        rfl
    rw [drains] at retire' raised'
    simp only [record] at retire'
    rw [closed] at raised
    refine ⟨?_, fun _ => ?_, ?_⟩
    · rw [purgeLetters, retire', retire]
      simp [State.drainsInTurn]
    · cases ls with
      | nil => exact begun
      | cons x xs =>
        obtain ⟨-, records, -⟩ :=
          purgeLetters_effect (x :: xs) (depart .purged l (s.setLetters (x :: xs))) (by simp)
        exact headBegun_trans begun (begun' (List.cons_ne_nil _ _)) ⟨_, records⟩
    · rw [State.drainsInTurn, List.flatten_cons, List.map_append]
      exact raised.trans raised'

/-- Settles O13: PURGE is its departures and an acknowledgment. -/
theorem purgeEmptiesTransitList : Obligations.PurgeEmptiesTransitList := by
  intro s ready
  obtain ⟨transit, -, -, transport⟩ := purgeLetters_effect s.transit.letters s rfl
  obtain ⟨retire, begun, raised⟩ := purgeLetters_purged s.transit.letters s
  have run : runCommand .purge s = ackTaken .purge (BitVec.ofNat 32 s.transit.letters.length)
      (purgeLetters s.transit.letters s) := by
    rw [runCommand, commandPurge, whenIdle_of_ready ready]
    rfl
  refine ⟨_, ready_exec run, by simp [transit], by simpa using retire, fun p => ?_, by simp [transport],
    fun none => ?_, fun some => ?_, takenTo_ackTaken _ _, ?_, ?_⟩
  · rw [pocket_congr (t := purgeLetters s.transit.letters s) (by simp), purgeLetters_pocket]
    rfl
  · rw [none]
    exact ⟨by simp [purgeLetters], by simp [purgeLetters]⟩
  · exact headBegun_congr (begun some) (by simp) (by simp) (State.records_congr (by simp))
  · have closed := funext (closedNotice_congr (s := purgeLetters s.transit.letters s)
      (t := ackTaken .purge (BitVec.ofNat 32 s.transit.letters.length)
        (purgeLetters s.transit.letters s)))
    rw [closed]
    exact raised.trans (ackTaken_raised _ _ _)
  · apply State.eq_of_fields <;> simp

/-! ### The sweep range (R137) -/

theorem refuseSweep_eq (c : Command) (r : ResultCode) (s : State) : refuseSweep c r s =
    acknowledge ⟨c.opcode, r, false, none, c.argument.setWidth 32⟩ { s with sweep := .idle } := rfl

theorem commandSweepFirst_of_ready {s : State} (ready : s.Ready) (p : PocketIx) :
    commandSweepFirst p s = acknowledge ⟨0x20#8, if s.sweep ≠ .idle then .seqError
        else if p.val < s.plan.pocketCount then .ok else .badArg, false, none, BitVec.ofNat 32 p.val⟩
      { s with sweep :=
          if s.sweep = .idle ∧ p.val < s.plan.pocketCount then .firstSet p else .idle } := by
  rw [commandSweepFirst, whenIdle_of_ready ready]
  cases sequence : s.sweep with
  | firstSet first | rangeSet first last ex =>
    simp only [refuseSweep_eq, Command.argument, pocketArgument_setWidth]
    simp [Command.opcode]
  | idle =>
    by_cases below : p.val < s.plan.pocketCount
    · simp [below, ackSweep, Command.opcode]
    · simp only [below, Nat.not_lt.1 below, if_true, refuseSweep_eq, Command.argument,
        pocketArgument_setWidth]
      simp [Command.opcode]

theorem commandSweepLast_of_firstSet {s : State} (ready : s.Ready) {p first : PocketIx}
    (sequence : s.sweep = .firstSet first) : commandSweepLast p s =
      acknowledge ⟨0x21#8, if first ≤ p ∧ p.val < s.plan.pocketCount then .ok else .badArg, false,
        none, BitVec.ofNat 32 p.val⟩
      { s with sweep :=
          if first ≤ p ∧ p.val < s.plan.pocketCount then .rangeSet first p [] else .idle } := by
  rw [commandSweepLast, whenIdle_of_ready ready]
  simp only [sequence]
  have bad : (s.plan.pocketCount ≤ p.val ∨ p < first) ↔ ¬(first ≤ p ∧ p.val < s.plan.pocketCount) := by
    rw [← Nat.not_lt, ← Fin.not_le]
    tauto
  by_cases good : first ≤ p ∧ p.val < s.plan.pocketCount
  · rw [if_neg (by simp [bad, good]), if_pos good, if_pos good]
    simp [ackSweep, Command.opcode]
  · rw [if_pos (bad.2 good), if_neg good, if_neg good]
    simp only [refuseSweep_eq, Command.argument, pocketArgument_setWidth]
    rfl

theorem commandSweepLast_of_other {s : State} (ready : s.Ready) {p : PocketIx}
    (sequence : ∀ first, s.sweep ≠ .firstSet first) : commandSweepLast p s =
      acknowledge ⟨0x21#8, .seqError, false, none, BitVec.ofNat 32 p.val⟩
      { s with sweep := .idle } := by
  rw [commandSweepLast, whenIdle_of_ready ready]
  cases range : s.sweep with
  | firstSet first => exact absurd range (sequence first)
  | idle | rangeSet first last ex =>
    simp only [refuseSweep_eq, Command.argument, pocketArgument_setWidth]
    rfl

/-- What both range commands do besides setting the sequence. -/
theorem acknowledged_sweep {s t : State} {sequence : Sweep} {r : CmdResult} (ready : s.Ready)
    (h : t = acknowledge r { s with sweep := sequence }) :
    t.cmd.ackCount = s.cmd.ackCount + 1 ∧ t.cmd.executing = false ∧
      s.Raised t [ackNotice t.cmd.last] ∧
      { t with
        sweep := s.sweep, cmd := s.cmd, notice := s.notice, noticeReq := s.noticeReq } = s := by
  obtain ⟨-, cmd, raised, frame⟩ := acknowledge_after_sweep s sequence r
  rw [h]
  exact ⟨by rw [cmd], by rw [cmd]; exact ready.2, raised, frame⟩

/-- Settles O32: each range command is one acknowledgment on a new sequence. -/
theorem sweepRangeIsBuilt : Obligations.SweepRangeIsBuilt := by
  refine ⟨fun s => ?_, fun s p ready => ?_⟩
  · cases sequence : s.sweep <;> simp [State.sweepOpen, sequence]
  · obtain ⟨sequence, result, last, taken⟩ : ∃ sequence r, commandSweepLast p s =
        acknowledge r { s with sweep := sequence } ∧
        ((∀ first, s.sweep = .firstSet first →
          sequence = (if first ≤ p ∧ p.val < s.plan.pocketCount then .rangeSet first p []
            else .idle) ∧
          r = ⟨0x21#8, if first ≤ p ∧ p.val < s.plan.pocketCount then .ok else .badArg,
            false, none, BitVec.ofNat 32 p.val⟩) ∧
        ((∀ first, s.sweep ≠ .firstSet first) → sequence = .idle ∧
          r = ⟨0x21#8, .seqError, false, none, BitVec.ofNat 32 p.val⟩)) := by
      by_cases set : ∃ first, s.sweep = .firstSet first
      · obtain ⟨first, set⟩ := set
        refine ⟨_, _, commandSweepLast_of_firstSet ready set, fun x same => ?_,
          fun none => absurd set (none first)⟩
        obtain rfl : first = x := by simpa [set] using same
        exact ⟨rfl, rfl⟩
      · have other : ∀ first, s.sweep ≠ .firstSet first := fun first same => set ⟨first, same⟩
        exact ⟨_, _, commandSweepLast_of_other ready other, fun first same => absurd same (other first),
          fun _ => ⟨rfl, rfl⟩⟩
    refine ⟨_, _, ready_exec (c := .sweepFirst p) (commandSweepFirst_of_ready ready p),
      ready_exec (c := .sweepLast p) last, by simp, by simp, fun first set => ?_, fun other => ?_, ?_⟩
    · obtain ⟨rfl, rfl⟩ := taken.1 first set
      exact ⟨by simp, by simp⟩
    · obtain ⟨rfl, rfl⟩ := taken.2 other
      exact ⟨by simp, by simp⟩
    · rintro u (rfl | rfl)
      · exact acknowledged_sweep ready rfl
      · exact acknowledged_sweep ready rfl

/-! ### SWEEP_GO (R136) -/

/-- Batch records handed one after another are handed as one (R142). -/
theorem batchHanded_trans {s t u : State} (h : s.BatchHanded t) (later : t.BatchHanded u) :
    s.BatchHanded u := by
  rw [batchHanded_iff] at h later ⊢
  obtain ⟨marked, ended⟩ := h
  obtain ⟨marked', ended'⟩ := later
  refine ⟨fun rest r retire => ?_, fun empty => ?_⟩
  · obtain ⟨retire1, chain1, chainReq1⟩ := marked rest r retire
    obtain ⟨retire2, chain2, chainReq2⟩ := marked' rest _ retire1
    exact ⟨retire2, chain2.trans chain1, chainReq2.trans chainReq1⟩
  · obtain ⟨empty1, closes1, stays1⟩ := ended empty
    obtain ⟨empty2, closes2, stays2⟩ := ended' empty1
    refine ⟨empty2, fun closes => ?_, fun stays => ?_⟩
    · obtain ⟨chain1, chainReq1⟩ := closes1 closes
      obtain ⟨chain2, chainReq2⟩ := stays2 (by simp [batchCloses, chain1])
      exact ⟨chain2.trans chain1, chainReq2.trans chainReq1⟩
    · obtain ⟨chain1, chainReq1⟩ := stays1 stays
      obtain ⟨chain2, chainReq2⟩ := stays2 (by rw [batchCloses, chain1]; exact stays)
      exact ⟨chain2.trans chain1, chainReq2.trans chainReq1⟩

/-- What SWEEP_GO makes of a selected pocket (R136). -/
def swept (x : Pocket) : Pocket :=
  if x.state = .opened then
    { x with state := if x.inFlight = 0 then .closed else .draining .closed }
  else x

/-- The batch of a selected pocket ends at once (R136). -/
def sweepCloses (x : Pocket) : Prop := x.state = .opened ∧ x.inFlight = 0

/-- What SWEEP_GO raises for a selected pocket, `closed` being the notice of its batch (R133, R136). -/
def sweepNotices (x : Pocket) (p : PocketIx) (closed : Notice) : List Notice :=
  match x.state with
  | .opened => if x.inFlight = 0 then [closed] else []
  | .disabled => [⟨.sweepSkip, BitVec.ofNat 8 p.val, 0#4, 0#4, 0#16, 0#32, 0#24⟩]
  | .closed | .draining _ => []

/-- The sweep of one pocket, or of several. -/
structure Swept (ps : List PocketIx) (s t : State) : Prop where
  pocket : ∀ q, t.pocket q = if q ∈ ps then swept (s.pocket q) else s.pocket q
  raised : s.Raised t (ps.flatMap fun p => sweepNotices (s.pocket p) p (t.closedNotice p))
  handed : (∃ p ∈ ps, sweepCloses (s.pocket p)) → s.BatchHanded t
  kept   : (∀ p ∈ ps, ¬sweepCloses (s.pocket p)) →
    t.retire = s.retire ∧ t.chain = s.chain ∧ t.chainReq = s.chainReq

theorem pocket_of_set {s t : State} {p : PocketIx} {x : Pocket}
    (pockets : t.pockets = (s.setPocket p x).pockets) (q : PocketIx) :
    t.pocket q = if q = p then x else s.pocket q := by
  rw [pocket_congr pockets, setPocket_pocket]
  simp only [eq_comm]

theorem sweepPocket_swept (p : PocketIx) (s : State) : Swept [p] s (sweepPocket p s) := by
  have same (h : swept (s.pocket p) = s.pocket p) (q : PocketIx) :
      s.pocket q = if q ∈ [p] then swept (s.pocket q) else s.pocket q := by
    split
    case isTrue here => rw [List.mem_singleton.1 here, h]
    case isFalse => rfl
  have stays (h : ¬sweepCloses (s.pocket p)) (P : Prop) :
      (∃ q ∈ [p], sweepCloses (s.pocket q)) → P := fun ⟨q, here, closes⟩ =>
    absurd (List.mem_singleton.1 here ▸ closes) h
  unfold sweepPocket
  cases state : (s.pocket p).state with
  | opened =>
    by_cases empty : (s.pocket p).inFlight = 0
    · simp only [empty, if_true]
      refine ⟨fun q => ?_, ?_, fun _ => closeBatch_handed p .closed s, fun none =>
        absurd ⟨state, empty⟩ (none p (List.mem_singleton_self p))⟩
      · rw [pocket_of_set (closeBatch_pockets p .closed s)]
        by_cases here : q = p
        · subst here
          simp [swept, state, empty]
        · simp [here]
      · have raised := closeBatch_raised p .closed s
        simpa [sweepNotices, state, empty] using raised
    · simp only [empty, if_false]
      refine ⟨fun q => ?_, ?_, stays (fun closes => empty closes.2) _, fun _ => ⟨rfl, rfl, rfl⟩⟩
      · rw [pocket_of_set (t := startDrain p .closed s) rfl]
        by_cases here : q = p
        · subst here
          simp [swept, state, empty]
        · simp [here]
      · simpa [sweepNotices, state, empty] using State.Raised.refl (s := s)
          (t := startDrain p .closed s) rfl rfl rfl rfl
  | disabled =>
    refine ⟨fun q => ?_, ?_, stays (by simp [sweepCloses, state]) _, fun _ => ⟨by simp, by simp, by simp⟩⟩
    · rw [pocket_congr (t := s) (by simp)]
      exact same (by simp [swept, state]) q
    · simpa [sweepNotices, state] using raise_raised
        { kind := .sweepSkip, source := BitVec.ofNat 8 p.val } s
  | closed | draining =>
    refine ⟨same (by simp [swept, state]), ?_, stays (by simp [sweepCloses, state]) _, fun _ => ⟨rfl, rfl, rfl⟩⟩
    simpa [sweepNotices, state] using State.Raised.refl (s := s) (t := s) rfl rfl rfl rfl

/-- A pocket that is not selected later keeps what the sweep made of it. -/
theorem sweepPockets_swept (ps : List PocketIx) (s : State) (distinct : ps.Nodup) :
    Swept ps s (sweepPockets ps s) := by
  induction ps generalizing s with
  | nil =>
    exact ⟨fun q => by simp [sweepPockets], .refl rfl rfl rfl rfl, by simp, fun _ => ⟨rfl, rfl, rfl⟩⟩
  | cons p ps ih =>
    obtain ⟨fresh, distinct⟩ := List.nodup_cons.1 distinct
    have head := sweepPocket_swept p s
    have tail := ih (sweepPocket p s) distinct
    have untouched (q : PocketIx) (later : q ∈ ps) : (sweepPocket p s).pocket q = s.pocket q := by
      have apart : q ∉ [p] := fun here => fresh (by rwa [List.mem_singleton.1 here] at later)
      rw [head.pocket, if_neg apart]
    have fixed : (sweepPockets (p :: ps) s).closedNotice p = (sweepPocket p s).closedNotice p := by
      have pocket := tail.pocket p
      rw [if_neg fresh] at pocket
      exact closedNotice_same (by rw [← pocket]; rfl) (by rw [← pocket]; rfl) (by rw [← pocket]; rfl)
    refine ⟨fun q => ?_, ?_, fun closes => ?_, fun stays => ?_⟩
    · change (sweepPockets ps (sweepPocket p s)).pocket q = _
      rw [tail.pocket, head.pocket]
      by_cases here : q = p
      · subst here
        simp [fresh]
      · simp [here]
    · have raised := head.raised.trans tail.raised
      simp only [List.flatMap_cons, List.flatMap_nil, List.append_nil] at raised ⊢
      rw [fixed]
      refine Eq.subst (motive := fun ns => s.Raised _ (_ ++ ns)) ?_ raised
      exact List.flatMap_congr fun q later => by rw [untouched q later]; rfl
    · by_cases first : sweepCloses (s.pocket p)
      · have handed := head.handed ⟨p, List.mem_singleton_self p, first⟩
        by_cases more : ∃ q ∈ ps, sweepCloses ((sweepPocket p s).pocket q)
        · exact batchHanded_trans handed (tail.handed more)
        · obtain ⟨retire, chain, chainReq⟩ := tail.kept fun q later closes => more ⟨q, later, closes⟩
          exact batchHanded_congr handed retire chain chainReq
      · obtain ⟨retire, chain, chainReq⟩ := head.kept fun q here => List.mem_singleton.1 here ▸ first
        obtain ⟨q, member, closes⟩ := closes
        have later : q ∈ ps := (List.mem_cons.1 member).resolve_left fun same => first (same ▸ closes)
        exact batchHanded_congr_left (tail.handed ⟨q, later, by rw [untouched q later]; exact closes⟩)
          retire.symm chain.symm chainReq.symm (by simp)
    · obtain ⟨first, later⟩ := List.forall_mem_cons.1 stays
      obtain ⟨retire1, chain1, chainReq1⟩ := head.kept fun q here => List.mem_singleton.1 here ▸ first
      obtain ⟨retire2, chain2, chainReq2⟩ := tail.kept fun q member => by
        rw [untouched q member]; exact later q member
      exact ⟨retire2.trans retire1, chain2.trans chain1, chainReq2.trans chainReq1⟩

theorem sweepSelection_eq (first last : PocketIx) (ex : List PocketIx) :
    sweepSelection first last ex = (List.finRange 64).filter
      fun p => decide (first ≤ p ∧ p ≤ last ∧ p ≠ 0 ∧ p ∉ ex) := by
  refine List.filter_congr fun p _ => ?_
  simp [Bool.and_assoc]

theorem mem_sweepSelection (first last : PocketIx) (ex : List PocketIx) (p : PocketIx) :
    p ∈ sweepSelection first last ex ↔ first ≤ p ∧ p ≤ last ∧ p ≠ 0 ∧ p ∉ ex := by
  simp [sweepSelection_eq]

theorem sweepSelection_nodup (first last : PocketIx) (ex : List PocketIx) :
    (sweepSelection first last ex).Nodup := (List.nodup_finRange 64).filter _

theorem sweepCount_eq (first last : PocketIx) (ex : List PocketIx) (s : State) :
    sweepCount (sweepSelection first last ex) s = (List.finRange 64).countP
      fun p => decide (first ≤ p ∧ p ≤ last ∧ p ≠ 0 ∧ p ∉ ex ∧ (s.pocket p).state = .opened) := by
  rw [sweepCount, sweepSelection_eq, List.countP_filter]
  refine List.countP_congr fun p _ => ?_
  simp only [Bool.and_eq_true, decide_eq_true_eq]
  tauto

/-- SWEEP_GO's acknowledgment, with which the sequence ends (R136). -/
def endSweep (n : Nat) (s : State) : State :=
  ackSweep .sweepGo (BitVec.ofNat 32 n) { s with sweep := .idle }

theorem endSweep_raised (n : Nat) (s : State) :
    s.Raised (endSweep n s) [ackNotice (endSweep n s).cmd.last] :=
  (ackSweep_raised .sweepGo _ { s with sweep := .idle }).congr_left rfl rfl rfl rfl

theorem endSweep_closedNotice (n : Nat) (s : State) :
    (endSweep n s).closedNotice = s.closedNotice :=
  funext (closedNotice_congr (by simp [endSweep]))

theorem commandSweepGo_of_rangeSet {s : State} (ready : s.Ready) {first last : PocketIx}
    {ex : List PocketIx} (sequence : s.sweep = .rangeSet first last ex) : commandSweepGo s =
      endSweep (sweepCount (sweepSelection first last ex) s)
        (sweepPockets (sweepSelection first last ex) s) := by
  rw [commandSweepGo, whenIdle_of_ready ready, sequence]
  rfl

/-- Settles O34: the sweep by induction over the selected pockets, and one acknowledgment. -/
theorem sweepGoClosesSelected : Obligations.SweepGoClosesSelected := by
  refine fun s ready => ⟨fun first last ex sequence => ?_, fun other => ?_⟩
  · have sweep := sweepPockets_swept _ s (sweepSelection_nodup first last ex)
    refine ⟨_, ready_exec (c := .sweepGo) (commandSweepGo_of_rangeSet ready sequence),
      ?_, fun p => ?_, by simp [endSweep], ?_, ?_⟩
    · rintro selected rfl
      rw [← sweepSelection_eq]
      refine ⟨?_, fun closes => batchHanded_congr (sweep.handed closes) (by simp [endSweep]) (by simp [endSweep])
        (by simp [endSweep]), fun stays => ?_⟩
      · have raised := sweep.raised.trans (endSweep_raised
          (sweepCount (sweepSelection first last ex) s) _)
        rw [← endSweep_closedNotice] at raised
        exact raised
      · obtain ⟨retire, chain, chainReq⟩ := sweep.kept fun p member closes =>
          stays p member closes.1 closes.2
        exact ⟨by simpa [endSweep] using retire, by simpa [endSweep] using chain,
          by simpa [endSweep] using chainReq⟩
    · rw [pocket_congr (t := sweepPockets (sweepSelection first last ex) s) (by simp [endSweep]),
        sweep.pocket]
      simp only [mem_sweepSelection, swept]
      by_cases selected : first ≤ p ∧ p ≤ last ∧ p ≠ 0 ∧ p ∉ ex
      · rw [if_pos selected]
        obtain ⟨above, below, zero, included⟩ := selected
        simp [above, below, zero, included]
      · rw [if_neg selected, if_neg fun h => selected ⟨h.1, h.2.1, h.2.2.1, h.2.2.2.1⟩]
    · rw [endSweep, ackSweep_cmd, sweepCount_eq]
      simp [Command.opcode]
    · apply State.eq_of_fields <;> simp [endSweep]
  · have refused : commandSweepGo s = acknowledge ⟨0x23#8, .seqError, false, none, 0#32⟩
        { s with sweep := .idle } := by
      rw [commandSweepGo, whenIdle_of_ready ready]
      cases sequence : s.sweep with
      | rangeSet first last ex => exact absurd sequence (other first last ex)
      | idle | firstSet first => rfl
    exact ⟨_, ready_exec (c := .sweepGo) refused, acknowledge_after_sweep s _ _⟩

end Sys2Proof.Proofs
end

section
/-! PROOFS. Dispatches at the gate window (O28, O29). -/

namespace Sys2Proof.Proofs

open Sys2Proof Sys2Proof.Machine Sys2Proof.Laws

/-! ### Landings (R113) -/

/-- The FEED_HOLD notice speaks of pocket 0's capacity and fill, not of its state or letters in flight. -/
theorem feedHoldNotice_of_pocket {s t : State}
    (line : t.transport.line = s.transport.line) (latch : t.transport.occupancy = s.transport.occupancy)
    (layout : t.plan.layout = s.plan.layout) (capacity : (t.pocket 0).capacity = (s.pocket 0).capacity)
    (fill : (t.pocket 0).fill = (s.pocket 0).fill) :
    t.holdLevel = s.holdLevel ∧ t.feedHoldNotice = s.feedHoldNotice := by
  have reject : t.holdReject = s.holdReject := by
    rw [holdReject_eq, holdReject_eq, layout, capacity, fill]
  have level : t.holdLevel = s.holdLevel := by
    simp only [State.holdLevel, State.holdLine, line, latch, reject]
  refine ⟨level, ?_⟩
  rw [feedHoldNotice_eq, feedHoldNotice_eq, level, line, latch, reject]

theorem fillNotices_raised (p : PocketIx) (tag : Word) {s : State} {x : Pocket} (room : x.fill < 4095)
    (pocket : s.pocket p = { x with fill := x.fill + 1 }) :
    s.Raised (fillNotices p tag s) (x.landingNotices p tag) := by
  have still : s.Raised s [] := .refl rfl rfl rfl rfl
  unfold fillNotices Pocket.landingNotices
  rw [pocket, if_pos room]
  by_cases near : x.threshold ≠ 0 ∧ x.fill + 1 = x.threshold
  · by_cases full : x.capacity = some (x.fill + 1)
    · simp only [if_pos near, if_pos full]
      exact (raise_raised _ s).raise _
    · simp only [if_pos near, if_neg full]
      exact raise_raised _ s
  · by_cases full : x.capacity = some (x.fill + 1)
    · simp only [if_neg near, if_pos full]
      exact still.raise _
    · simp only [if_neg near, if_neg full]
      exact still

theorem raiseFill_zero {tag : Word} {s : State} (room : (s.pocket 0).fill < 4095) :
    raiseFill 0 tag s = evalFeedHold (fillNotices 0 tag
      (s.setPocket 0 { s.pocket 0 with fill := (s.pocket 0).fill + 1 })) :=
  (if_pos room).trans (if_pos rfl)

theorem raiseFill_other {p : PocketIx} {tag : Word} {s : State} (room : (s.pocket p).fill < 4095)
    (zero : p ≠ 0) : raiseFill p tag s = fillNotices p tag
      (s.setPocket p { s.pocket p with fill := (s.pocket p).fill + 1 }) :=
  (if_pos room).trans (if_neg zero)

theorem raiseFill_full {p : PocketIx} {tag : Word} {s : State} (full : ¬(s.pocket p).fill < 4095) :
    raiseFill p tag s = s := if_neg full

/-- A landing raises the notices of the new fill and of a changed level of FEED_HOLD (R113). -/
theorem raiseFill_raised (p : PocketIx) (tag : Word) (s : State) : s.Raised (raiseFill p tag s)
    ((s.pocket p).landingNotices p tag ++
      if (raiseFill p tag s).transport.feedHold = s.transport.feedHold then []
      else [(raiseFill p tag s).feedHoldNotice]) := by
  by_cases room : (s.pocket p).fill < 4095
  · have filled := (fillNotices_raised p tag (s := s.setPocket p { s.pocket p with
      fill := (s.pocket p).fill + 1 }) (x := s.pocket p) room (by simp)).congr_left (s' := s)
      (by simp) (by simp) (by simp) (by simp)
    by_cases zero : p = 0
    · subst zero
      rw [raiseFill_zero room]
      generalize hu : fillNotices 0 tag (s.setPocket 0 { s.pocket 0 with
          fill := (s.pocket 0).fill + 1 }) = u at filled
      have hold : u.transport.feedHold = s.transport.feedHold := by simp [← hu]
      have notice : (evalFeedHold u).feedHoldNotice = u.feedHoldNotice := feedHoldNotice_same
      rw [evalFeedHold_transport, notice, ← hold]
      exact filled.trans (evalFeedHold_raised u)
    · rw [raiseFill_other room zero, if_pos (by simp), List.append_nil]
      exact filled
  · rw [raiseFill_full room, if_pos rfl, Pocket.landingNotices, if_neg room]
    exact .refl rfl rfl rfl rfl

theorem raiseFill_feedHold (p : PocketIx) (tag : Word) (s : State) :
    (raiseFill p tag s).transport.feedHold =
      if p = 0 ∧ (s.pocket 0).fill < 4095 then (raiseFill p tag s).holdLevel
      else s.transport.feedHold := by
  by_cases room : (s.pocket p).fill < 4095
  · by_cases zero : p = 0
    · subst zero
      rw [if_pos ⟨rfl, room⟩, raiseFill_zero room]
      exact evalFeedHold_feedRight _
    · rw [if_neg fun h => zero h.1, raiseFill_other room zero]
      simp
  · rw [raiseFill_full room, if_neg]
    rintro ⟨rfl, landed⟩
    exact room landed

/-! ### Dispatches (R110 to R115) -/

theorem drainedBy_of_pocket {s t : State} (l : Letter)
    (state : ∀ p, (t.pocket p).state = (s.pocket p).state)
    (inFlight : ∀ p, (t.pocket p).inFlight = (s.pocket p).inFlight) : t.drainedBy l = s.drainedBy l := by
  unfold State.drainedBy
  cases l.state with
  | decided d =>
    have released : (t.pocket d.final).released.state = (s.pocket d.final).released.state := by
      simp only [Pocket.released, state, inFlight]
    simp only [released, state]
  | collecting | awaitPlan => rfl

theorem raiseFill_pocket_rest (p q : PocketIx) (tag : Word) (s : State) :
    ((raiseFill p tag s).pocket q).state = (s.pocket q).state ∧
    ((raiseFill p tag s).pocket q).inFlight = (s.pocket q).inFlight ∧
    ((raiseFill p tag s).pocket q).batch = (s.pocket q).batch := by
  rw [raiseFill_pocket_eq]
  split <;> exact ⟨rfl, rfl, rfl⟩

/-- A letter found at a dispatch: it lands in pocket `p` and departs (R112, R114). -/
structure Dispatched (o : DispositionOutcome) (l : Letter) (slot : BitVec 8) (p : PocketIx)
    (s t : State) : Prop where
  transit   : t.transit = { s.transit with
    letters := s.transit.letters.eraseP fun x => slotOf x.tag == slot }
  retire    : t.retire = s.retire ++ [⟨s.disposition o l, !(s.drainedBy l).isEmpty⟩]
  pocket    : ∀ q, t.pocket q = if l.reserves q = true then
      (if q = p then (s.pocket q).landed else s.pocket q).released
    else if q = p then (s.pocket q).landed else s.pocket q
  transport : t.transport = { s.transport with
    feedHold := if p = 0 ∧ (s.pocket 0).fill < 4095 then t.holdLevel else s.transport.feedHold
    stall := if t.transit.letters = [] then none else s.transport.stall }
  begun     : s.HeadBegun t
  raised    : s.Raised t ((s.pocket p).landingNotices p (l.tag.setWidth 32) ++
    (if t.transport.feedHold = s.transport.feedHold then [] else [t.feedHoldNotice]) ++
    (s.drainedBy l).map t.closedNotice)
  frame     : { t with
    backplane := s.backplane, transit := s.transit, transport := s.transport, pockets := s.pockets, retire := s.retire
    chain := s.chain, chainReq := s.chainReq, notice := s.notice, noticeReq := s.noticeReq } = s

theorem dispatched_depart (o : DispositionOutcome) (l : Letter) (slot : BitVec 8) (p : PocketIx)
    (s : State) : Dispatched o l slot p s
      (depart o l (raiseFill p (l.tag.setWidth 32) (removeLetter slot s))) := by
  have removed (q : PocketIx) : (removeLetter slot s).pocket q = s.pocket q := pocket_congr (by simp) q
  have rest := fun q => raiseFill_pocket_rest p q (l.tag.setWidth 32) (removeLetter slot s)
  have landed := fun q => raiseFill_pocket_eq p q (l.tag.setWidth 32) (removeLetter slot s)
  have transport := raiseFill_transport p (l.tag.setWidth 32) (removeLetter slot s)
  have feedHold := raiseFill_feedHold p (l.tag.setWidth 32) (removeLetter slot s)
  have landing := (raiseFill_raised p (l.tag.setWidth 32) (removeLetter slot s)).congr_left (s' := s)
    (by simp) (by simp) (by simp) (by simp)
  simp only [removed] at rest landed feedHold landing
  generalize hv : raiseFill p (l.tag.setWidth 32) (removeLetter slot s) = v at *
  have letters : v.transit = { s.transit with
      letters := s.transit.letters.eraseP fun x => slotOf x.tag == slot } := by
    simp [← hv, removeLetter]
  have record : v.disposition o l = s.disposition o l :=
    disposition_congr o l (by rw [transport]; simp) fun q => (rest q).2.2
  have drained : v.drainedBy l = s.drainedBy l :=
    drainedBy_of_pocket l (fun q => (rest q).1) fun q => (rest q).2.1
  obtain ⟨retire, begun, raised⟩ := depart_departed o l v
  have pocket := fun q => depart_pocket_eq o l q v
  have same : ((depart o l v).pocket 0).capacity = (v.pocket 0).capacity ∧
      ((depart o l v).pocket 0).fill = (v.pocket 0).fill := by
    rw [pocket]
    split <;> exact ⟨rfl, rfl⟩
  obtain ⟨level, notice⟩ := feedHoldNotice_of_pocket (s := v) (t := depart o l v) (by simp) (by simp)
    (by simp) same.1 same.2
  rw [record, drained] at retire
  rw [drained] at raised
  refine ⟨?_, ?_, fun q => ?_, ?_, ?_, ?_, ?_⟩
  · simp [letters]
  · simpa [← hv] using retire
  · rw [pocket, landed]
  · rw [depart_transport, transport]
    simp [level, feedHold]
  · exact headBegun_congr_left begun (by simp [← hv]) (by simp [← hv]) (by simp [← hv])
  · rw [depart_transport, notice]
    have level : (removeLetter slot s).transport.feedHold = s.transport.feedHold := by simp
    rw [level] at landing
    exact landing.trans raised
  · apply State.eq_of_fields <;> simp [← hv]

theorem exec_of_effect {c : Instr} {s t : State} (h : effect c s = t) : exec c s = .next t := by
  rw [exec_eq, h]

theorem gateDispatch_of_master {s : State} {slot : BitVec 8} {m : MasterNo}
    (released : s.resetLow = false) (free : s.backplane.busy = none) (master : s.gateMaster = some m) :
    gateDispatch slot s =
      respondWord m (dispatchWord slot (s.letterBySlot slot)).word (dispatch slot m s) := by
  simp [gateDispatch, released, free, master, gateRead, gateAnswer, gateEffect]

theorem dispatch_of_found {s : State} {slot : BitVec 8} {m : MasterNo} {l : Letter}
    (found : s.letterBySlot slot = some l) : dispatch slot m s = dispatchLetter slot l s := by
  rw [dispatch, found]

theorem respondWord_raised {s t : State} {ns : List Notice} (h : s.Raised t ns) (m : MasterNo)
    (w : Word) : s.Raised (respondWord m w t) ns := by
  have raised := h.trans (.refl (t := respondWord m w t) rfl rfl rfl rfl)
  rwa [List.append_nil] at raised

/-- The answer at the backplane leaves what a dispatch did. -/
theorem dispatched_respond {o : DispositionOutcome} {l : Letter} {slot : BitVec 8} {p : PocketIx}
    {s t : State} (h : Dispatched o l slot p s t) (m : MasterNo) (w : Word) :
    Dispatched o l slot p s (respondWord m w t) := by
  obtain ⟨transit, retire, pocket, transport, begun, raised, frame⟩ := h
  exact ⟨transit, retire, pocket, transport, begun, respondWord_raised raised m w, frame⟩

theorem respondWord_backplane_of_free {s t : State} (free : s.backplane.busy = none)
    (backplane : t.backplane = s.backplane) (m : MasterNo) (w : Word) :
    (respondWord m w t).backplane = ⟨none, some ⟨m, some (some w)⟩⟩ := by
  simp only [respondWord_backplane, backplane, free]

/-- Settles O28: the letter lands in its final pocket and departs, and the port answers its decision word. -/
theorem dispatchLandsDecidedLetter : Obligations.DispatchLandsDecidedLetter := by
  refine ⟨fun s => rfl, fun s o l => ⟨fun d => disposition_decided, disposition_undecided⟩,
    fun s slot m l d released free master found state => ?_⟩
  have run : gateDispatch slot s = respondWord m (decisionWord d slot).word
      (depart .dispatched l (raiseFill d.final (l.tag.setWidth 32) (removeLetter slot s))) := by
    rw [gateDispatch_of_master released free master, dispatch_of_found found, found]
    simp [dispatchWord, dispatchLetter, state]
  obtain ⟨transit, retire, pocket, transport, begun, raised, frame⟩ := dispatched_respond
    (dispatched_depart .dispatched l slot d.final s) m (decisionWord d slot).word
  refine ⟨_, exec_of_effect run, respondWord_backplane_of_free free (by simp) _ _, transit,
    retire, fun p => ?_, transport, begun, raised, frame⟩
  rw [pocket]
  by_cases same : p = d.final
  · subst same
    simp [Letter.reserves, state]
  · simp [Letter.reserves, state, same, Ne.symm same]

/-- A landing in pocket 0 without a reservation is all that the pocket table takes. -/
theorem pockets_of_landed {s t : State}
    (pocket : ∀ q, t.pocket q = if q = 0 then (s.pocket q).landed else s.pocket q) :
    t.pockets = s.pockets.set 0 { s.pocket 0 with
      fill := if (s.pocket 0).fill < 4095 then (s.pocket 0).fill + 1 else (s.pocket 0).fill } := by
  refine pockets_ext (s := s.setPocket 0 (s.pocket 0).landed) fun q => ?_
  rw [pocket, setPocket_pocket]
  by_cases zero : q = 0
  · subst zero
    rfl
  · rw [if_neg zero, if_neg (Ne.symm zero)]

/-- A dispatch of an empty slot lands in pocket 0 alone and says so (R115). -/
theorem dispatch_of_empty {s : State} {slot : BitVec 8} (m : MasterNo)
    (empty : s.letterBySlot slot = none) : dispatch slot m s =
      raise ⟨.untrackedDispatch, m.setWidth 8, 0#4, 0#4, slot.setWidth 16,
        BitVec.ofNat 32 (s.pocket 0).landed.fill, 0#24⟩ (raiseFill 0 0xFFFFFFFF#32 s) := by
  have fill : ((raiseFill 0 0xFFFFFFFF#32 s).pocket 0).fill = (s.pocket 0).landed.fill := by
    rw [raiseFill_pocket_eq, if_pos rfl]
  rw [dispatch, empty]
  simp only [dispatchUntracked, untrackedNotice, fill]

theorem landingNotices_eq (x : Pocket) (p : PocketIx) (tag : Word) : x.landingNotices p tag =
    (if x.fill < 4095 ∧ x.threshold ≠ 0 ∧ x.landed.fill = x.threshold then
      [⟨.pocketNearFull, BitVec.ofNat 8 p.val, 0#4, 0#4, BitVec.ofNat 16 x.landed.fill, tag, 0#24⟩]
    else []) ++
    (if x.fill < 4095 ∧ x.capacity = some x.landed.fill then
      [⟨.pocketFull, BitVec.ofNat 8 p.val, 0#4, 0#4, BitVec.ofNat 16 x.landed.fill, tag, 0#24⟩]
    else []) := by
  by_cases room : x.fill < 4095
  · simp [Pocket.landingNotices, Pocket.landed, room]
  · simp [Pocket.landingNotices, room]

/-- Settles O29: a letter without a decision lands late in pocket 0; of an empty slot only pocket 0 hears. -/
theorem dispatchWithoutDecision : Obligations.DispatchWithoutDecision := by
  refine ⟨fun s slot m l released free master found undecided => ?_,
    fun s slot m released free master empty => ?_⟩
  · have noReserve (p : PocketIx) : l.reserves p = false := by
      rcases undecided with state | state <;> simp [Letter.reserves, state]
    have noDrain : s.drainedBy l = [] := by
      rcases undecided with state | state <;> simp [State.drainedBy, state]
    have run : gateDispatch slot s = respondWord m
        (GateWord.word ⟨true, 0, .lateDecision, false, false, false, false, false, slot⟩)
        (depart .lateDecision l (raiseFill 0 (l.tag.setWidth 32) (removeLetter slot s))) := by
      rw [gateDispatch_of_master released free master, dispatch_of_found found, found]
      rcases undecided with state | state <;> simp [dispatchWord, dispatchLetter, state]
    obtain ⟨transit, retire, pocket, transport, begun, raised, frame⟩ := dispatched_respond
      (dispatched_depart .lateDecision l slot 0 s) m
      (GateWord.word ⟨true, 0, .lateDecision, false, false, false, false, false, slot⟩)
    rw [noDrain] at retire raised
    refine ⟨_, exec_of_effect run, respondWord_backplane_of_free free (by simp) _ _, transit,
      retire, pockets_of_landed fun q => by rw [pocket, noReserve]; rfl, ?_, begun, ?_, frame⟩
    · rw [transport]
      simp
    · simpa using raised
  · have run : gateDispatch slot s = respondWord m
        (GateWord.word ⟨true, 0, .none, false, true, false, false, false, slot⟩)
        (dispatch slot m s) := by
      rw [gateDispatch_of_master released free master, empty]
      rfl
    rw [dispatch_of_empty m empty] at run
    have landed := fun q => raiseFill_pocket_eq 0 q 0xFFFFFFFF#32 s
    have transport := raiseFill_transport 0 0xFFFFFFFF#32 s
    have feedHold := raiseFill_feedHold 0 0xFFFFFFFF#32 s
    have raised := respondWord_raised ((raiseFill_raised 0 0xFFFFFFFF#32 s).raise
      ⟨.untrackedDispatch, m.setWidth 8, 0#4, 0#4, slot.setWidth 16,
        BitVec.ofNat 32 (s.pocket 0).landed.fill, 0#24⟩) m
      (GateWord.word ⟨true, 0, .none, false, true, false, false, false, slot⟩)
    have level := State.hold_congr (s := raiseFill 0 0xFFFFFFFF#32 s) (t := respondWord m
        (GateWord.word ⟨true, 0, .none, false, true, false, false, false, slot⟩)
        (raise ⟨.untrackedDispatch, m.setWidth 8, 0#4, 0#4, slot.setWidth 16,
          BitVec.ofNat 32 (s.pocket 0).landed.fill, 0#24⟩ (raiseFill 0 0xFFFFFFFF#32 s)))
      (by simp) (by simp) (by simp) (by simp)
    refine ⟨_, (s.pocket 0).landed.fill, exec_of_effect run, rfl, respondWord_backplane_of_free free (by simp) _ _,
      pockets_of_landed fun q => ?_, ?_, ?_, ?_⟩
    · rw [← landed]
      exact pocket_congr (by simp) q
    · rw [level.1]
      simpa [feedHold] using transport
    · rw [landingNotices_eq, ← level.2.2] at raised
      simpa using raised
    · apply State.eq_of_fields <;> simp

end Sys2Proof.Proofs
end

section
/-! PROOFS. The decision of a letter and resolutions in list order (O24, O25, O27). -/

namespace Sys2Proof.Proofs

open Sys2Proof Sys2Proof.Machine Sys2Proof.Laws

/-! ### The decision (R101 to R104) -/

theorem pocketAvailable_iff (pk : Pockets) (p : PocketIx) : pocketAvailable pk p = true ↔
    p = 0 ∨ (pk[p].state = .opened ∧ ∀ c, pk[p].capacity = some c → pk[p].fill + pk[p].inFlight < c) := by
  unfold pocketAvailable
  cases pk[p].capacity <;> simp

theorem settle_of_available {pk : Pockets} {p : PocketIx} (free : pocketAvailable pk p = true)
    (cause : Cause) (ri : Option Nat) : settle pk p cause ri = ⟨p, p, cause, false, ri⟩ := if_pos free

theorem settle_of_partner {pk : Pockets} {p q : PocketIx} (full : pocketAvailable pk p = false)
    (partner : pk[p].partner = some q) (free : pocketAvailable pk q = true) (cause : Cause)
    (ri : Option Nat) : settle pk p cause ri = ⟨p, q, cause, true, ri⟩ := by
  have found : availablePartner pk p = some q := by
    simp only [availablePartner, partner, free, if_true]
  simp [settle, full, found]

theorem settle_of_neither {pk : Pockets} {p : PocketIx} (full : pocketAvailable pk p = false)
    (partners : ∀ q, pk[p].partner = some q → pocketAvailable pk q = false) (cause : Cause)
    (ri : Option Nat) : settle pk p cause ri =
      ⟨p, 0, if pk[p].state = .opened then .intendedFull else .intendedClosed, false, none⟩ := by
  have none : availablePartner pk p = none := by
    unfold availablePartner
    split
    case h_1 q partner => simp [partners q partner]
    case h_2 => rfl
  simp [settle, full, none]

theorem decideLetter_of_intended {plan : Plan} {l : Letter} {sum : Summary} {p : PocketIx}
    {cause : Cause} {ri : Option Nat} (valid : plan.state = .valid) (single : l.double = false)
    (apart : l.close = false) (agreed : sum.clash = false)
    (intended : intendedPocket plan sum = (p, cause, ri)) (pk : Pockets) :
    decideLetter plan pk l sum = settle pk p cause ri := by
  simp [decideLetter, valid, single, apart, agreed, intended]

/-- Settles O24: the checks of R101 in their order, then the three ways an intended pocket settles. -/
theorem decisionFollowsRules : Obligations.DecisionFollowsRules := by
  refine fun plan pk l sum => ⟨fun invalid => ?_, fun valid double => ?_, fun valid single close => ?_,
    fun valid single apart clash => ?_, fun p cause ri valid single apart agreed intended => ?_,
    pocketAvailable_iff pk⟩
  · simp [decideLetter, invalid, rejectDecision]
  · simp [decideLetter, valid, double, rejectDecision]
  · simp [decideLetter, valid, single, close, rejectDecision]
  · simp [decideLetter, valid, single, apart, clash, rejectDecision]
  · rw [decideLetter_of_intended valid single apart agreed intended]
    exact ⟨fun free => settle_of_available free cause ri,
      fun q full partner free => settle_of_partner full partner free cause ri,
      fun full partners => settle_of_neither full partners cause ri⟩

/-! ### The rules (R32, R102) -/

theorem matchRule_of_first {rules : List Rule} {sum : Summary} {r : Rule} {i : Nat}
    (here : rules[i]? = some r) (hit : r.matches sum.reason sum.forward sum.key = true)
    (first : ∀ j < i, ∀ x, rules[j]? = some x → x.matches sum.reason sum.forward sum.key = false) :
    matchRule rules sum = some (r, i) := by
  obtain ⟨bound, same⟩ := List.getElem?_eq_some_iff.1 here
  refine List.find?_eq_some_iff_getElem.2 ⟨hit, i, by simpa using bound, by simp [same], fun j before => ?_⟩
  simpa using first j before _ (List.getElem?_eq_getElem (before.trans bound))

theorem matchRule_of_none {rules : List Rule} {sum : Summary}
    (misses : ∀ r ∈ rules, r.matches sum.reason sum.forward sum.key = false) :
    matchRule rules sum = none := by
  refine List.find?_eq_none.2 fun x member => ?_
  simpa using misses x.1 (List.fst_mem_of_mem_zipIdx member)

theorem keyField_district (key : AccountKey) : keyField key .district =
    some (10 * keyDigit key 0 + keyDigit key 1) := by
  simp [keyField, keyNumber, List.range_succ]

theorem keyField_cycle (key : AccountKey) : keyField key .cycle =
    some (10 * keyDigit key 2 + keyDigit key 3) := by
  simp [keyField, keyNumber, List.range_succ]

theorem keyField_account (key : AccountKey) : keyField key .account =
    some (100000000 * keyDigit key 4 + 10000000 * keyDigit key 5 + 1000000 * keyDigit key 6 +
      100000 * keyDigit key 7 + 10000 * keyDigit key 8 + 1000 * keyDigit key 9 +
      100 * keyDigit key 10 + 10 * keyDigit key 11 + keyDigit key 12) := by
  simp only [keyField, keyNumber, List.range_succ, List.range_zero, List.nil_append,
    List.foldl_append, List.foldl_cons, List.foldl_nil, Option.some.injEq, Nat.reduceAdd]
  omega

theorem keyField_mailBatch (key : AccountKey) : keyField key .mailBatch =
    some (1000 * keyDigit key 13 + 100 * keyDigit key 14 + 10 * keyDigit key 15 + keyDigit key 16) := by
  simp only [keyField, keyNumber, List.range_succ, List.range_zero, List.nil_append,
    List.foldl_append, List.foldl_cons, List.foldl_nil, Option.some.injEq, Nat.reduceAdd]
  omega

/-- A selected field lies in a range (R32). -/
theorem selected_in_range (field : AccountKey → Option Nat) (low high : Nat) (key : Option AccountKey) :
    (match key.bind field with
      | some v => decide (low ≤ v) && decide (v ≤ high)
      | none => false) = true ↔
    ∃ k v, key = some k ∧ low ≤ v ∧ v ≤ high ∧ field k = some v := by
  cases key with
  | none => simp
  | some k =>
    cases found : field k with
    | none => simp [found]
    | some v => simp [found]

theorem matches_iff (r : Rule) (reason : BitVec 4) (fwd : Bool) (key : Option AccountKey) :
    r.matches reason fwd key = true ↔
      r.reasons.getLsbD reason.toNat = true ∧
      (r.forward = .any ∨ (r.forward = .present ∧ fwd = true) ∨ (r.forward = .absent ∧ fwd = false)) ∧
      (r.selector = .any ∨ ∃ k v, key = some k ∧ r.low ≤ v ∧ v ≤ r.high ∧
        keyField k r.selector = some v) := by
  rw [Rule.matches, Bool.and_eq_true, Bool.and_eq_true, and_assoc]
  refine and_congr_right fun _ => and_congr ?_ ?_
  · cases r.forward <;> simp
  · cases r.selector with
    | any => simp
    | district | cycle | account | mailBatch =>
      simp only [reduceCtorEq, false_or]
      exact selected_in_range _ _ _ _

/-- Settles O25: the first hit in the list of rules, and a rule's three conditions. -/
theorem firstMatchingRuleWins : Obligations.FirstMatchingRuleWins := by
  refine fun plan sum => ⟨fun r i here hit first => ?_, fun misses => ?_, fun r => ?_⟩
  · rw [intendedPocket, matchRule_of_first here hit first]
  · rw [intendedPocket, matchRule_of_none misses]
  · rw [matches_iff]
    refine and_congr_right fun _ => and_congr_right fun _ => ?_
    cases selector : r.selector with
    | any => simp
    | district => simp [keyField_district, eq_comm]
    | cycle => simp [keyField_cycle, eq_comm]
    | account => simp [keyField_account, eq_comm]
    | mailBatch => simp [keyField_mailBatch, eq_comm]

/-! ### Resolutions in list order (R94, R96, R105, R108) -/

theorem resolveLetter_of_loading {plan : Plan} (loading : plan.state = .loading) (pk : Pockets)
    (l : Letter) : resolveLetter plan pk l = (pk, { l with state := .awaitPlan }) := by
  rw [resolveLetter, loading]

theorem resolveLetter_of_decided {plan : Plan} (decided : plan.state ≠ .loading) (pk : Pockets)
    (l : Letter) : resolveLetter plan pk l =
      (reservePocket pk (decideLetter plan pk l (summarize l.reads)).final,
        l.decidedAs (decideLetter plan pk l (summarize l.reads)) (summarize l.reads)) := by
  unfold resolveLetter
  split
  case h_1 loading => exact absurd loading decided
  all_goals rfl

theorem resolveList_of_ready {plan : Plan} {ready : Letter → Bool} {l : Letter} (h : ready l = true)
    (pk : Pockets) (ls : List Letter) : resolveList plan ready pk (l :: ls) =
      ((resolveList plan ready (resolveLetter plan pk l).1 ls).1,
        (resolveLetter plan pk l).2 :: (resolveList plan ready (resolveLetter plan pk l).1 ls).2) := by
  rw [resolveList, if_pos h]

theorem waitedFor_iff (x : Station) :
    x.waitedFor = true ↔ x.framing ≠ .off ∧ x.expectation = .expected := by
  simp [Station.waitedFor]

theorem earlyReady_iff (stations : Vector Station 4) (l : Letter) : earlyReady stations l = true ↔
    (∃ st : StationIx, stations[st].framing ≠ .off ∧ stations[st].expectation = .expected) ∧
    ∀ st : StationIx, stations[st].framing ≠ .off → stations[st].expectation = .expected →
      l.reported[st] = true := by
  have all (st : StationIx) : st ∈ allStations := by revert st; decide
  unfold earlyReady
  simp only [Bool.and_eq_true, List.any_eq_true, List.all_eq_true, Bool.or_eq_true,
    Bool.not_eq_true', ← Bool.not_eq_true, waitedFor_iff, all, true_and, forall_true_left]
  refine and_congr_right fun _ => forall_congr' fun st => ?_
  tauto

/-- Settles O27: the recursion of resolveList, and one resolution by the plan state. -/
theorem resolutionsTakeListOrder : Obligations.ResolutionsTakeListOrder := by
  refine ⟨fun plan pk x => rfl, fun plan ready pk l ls => ⟨rfl, fun passed => ?_, fun taken loading => ?_,
    fun sum d taken decided summed decision => ?_, reservePocket_getElem pk, fun stations =>
      earlyReady_iff stations l⟩⟩
  · simp [resolveList, passed]
  · rw [resolveList_of_ready taken, resolveLetter_of_loading loading]
  · rw [resolveList_of_ready taken, resolveLetter_of_decided decided, ← summed, ← decision]
    rfl

end Sys2Proof.Proofs
end

section
/-! PROOFS. The advance with the expiries that it takes (O9). -/

namespace Sys2Proof.Proofs

open Sys2Proof Sys2Proof.Machine Sys2Proof.Laws

/-! ### Steps 1 to 4 of an advance (R46, R51 to R53) -/

/-- An advance before its expiries. -/
def advanced (s : State) : State := restartStall (endStall (countAdvance s))

theorem encAdvance_of_released {s : State} (released : s.resetLow = false) :
    encAdvance s = takeExpiries (advanced s) := by
  rw [encAdvance, if_neg (by simp [released])]
  rfl

theorem endStall_of_stalled {s : State} (stalled : s.transport.line = .stalled) :
    endStall s = setLine .running .motion s := if_pos stalled

theorem endStall_of_other {s : State} (other : s.transport.line ≠ .stalled) : endStall s = s :=
  if_neg other

theorem advanced_frame (s : State) : { advanced s with
    transport := s.transport, transit := s.transit, notice := s.notice
    noticeReq := s.noticeReq } = s := by
  apply State.eq_of_fields <;> simp [advanced]

theorem advanced_transit (s : State) : (advanced s).transit = { s.transit with
    gap := s.transit.gap.map fun g => if g < 65535 then g + 1 else g } := by
  have gap : nextGap s.transit.gap = s.transit.gap.map fun g => if g < 65535 then g + 1 else g := rfl
  rw [← gap]
  simp [advanced, countAdvance]

theorem advanced_transport (s : State) : (advanced s).transport = { s.transport with
    position := s.transport.position + 1
    line := if s.transport.line = .stalled then .running else s.transport.line
    feedHold := if s.transport.line = .stalled then (advanced s).holdLevel else s.transport.feedHold
    stall := if (advanced s).stallWatched then some 0 else none } := by
  have watched : (advanced s).stallWatched = (endStall (countAdvance s)).stallWatched := rfl
  have level : (advanced s).holdLevel = (endStall (countAdvance s)).holdLevel := rfl
  rw [watched, level, advanced, restartStall_transport]
  by_cases stalled : s.transport.line = .stalled
  · rw [endStall_of_stalled (s := countAdvance s) stalled]
    have same := (State.hold_congr (s := { countAdvance s with transport := {
      (countAdvance s).transport with line := .running } }) (t := setLine .running .motion (countAdvance s))
      (by simp) (by simp) (by simp) (by simp)).1
    rw [same]
    simp [stalled, countAdvance]
  · rw [endStall_of_other (s := countAdvance s) stalled]
    simp [stalled, countAdvance]

theorem advanced_raised (s : State) :
    State.Raised { s with transport := { s.transport with position := s.transport.position + 1 } }
      (advanced s)
      (if s.transport.line = .stalled then
        ⟨.lineState, 0#8, 1#4, 4#4, 2#16, 0#32, 0#24⟩ ::
          if (advanced s).transport.feedHold = s.transport.feedHold then []
          else [(advanced s).feedHoldNotice]
      else []) := by
  by_cases stalled : s.transport.line = .stalled
  · have moved := (setLine_raised .running .motion (countAdvance s)).congr_left
      (s' := { s with transport := { s.transport with position := s.transport.position + 1 } })
      rfl rfl rfl rfl
    have ended : advanced s = restartStall (setLine .running .motion (countAdvance s)) := by
      rw [advanced, endStall_of_stalled (s := countAdvance s) stalled]
    have raised := moved.trans (.refl (t := advanced s) (by rw [ended]; rfl) (by rw [ended]; rfl)
      (by rw [ended]; rfl) (by rw [ended]; rfl))
    rw [List.append_nil] at raised
    rw [if_pos stalled, ended]
    have line : (countAdvance s).transport.line = .stalled := stalled
    rw [line, ended] at raised
    exact raised
  · rw [if_neg stalled]
    have kept : advanced s = restartStall (countAdvance s) := by
      rw [advanced, endStall_of_other (s := countAdvance s) stalled]
    rw [kept]
    exact .refl rfl rfl rfl rfl

/-! ### The lost expiries (R48, R50) -/

/-- The lost expiries take letters from the head, each past its lost point, and record them in list order. -/
theorem takeLost_gone (ls : List Letter) (s : State) (letters : s.transit.letters = ls) :
    ∃ gone left, ls = gone ++ left ∧ (∀ l ∈ gone, s.lostReached l = true) ∧
      (takeLost ls s).transit.letters = left ∧
      (takeLost ls s).records = s.records ++ gone.map (s.disposition .lost) := by
  induction ls generalizing s with
  | nil => exact ⟨[], [], rfl, by simp, letters, by simp [takeLost]⟩
  | cons l rest ih =>
    by_cases reached : s.lostReached l = true
    · have taken : takeLost (l :: rest) s = takeLost rest (expireLost l rest s) := if_pos reached
      obtain ⟨gone, left, split, past, rest', records⟩ := ih (expireLost l rest s) (by simp [expireLost])
      have points (x : Letter) : (expireLost l rest s).lostReached x = s.lostReached x :=
        (reached_congr (by simp [expireLost]) (by simp) x).1
      have batch (p : PocketIx) : ((expireLost l rest s).pocket p).batch = (s.pocket p).batch := by
        rw [expireLost, pocket_congr (t := depart .lost l (s.setLetters rest)) (by simp),
          depart_pocket_eq, pocket_congr (s := s.setLetters rest) (t := s) (by simp)]
        split <;> rfl
      have record (x : Letter) : (expireLost l rest s).disposition .lost x = s.disposition .lost x :=
        disposition_congr .lost x (by simp [expireLost]) batch
      have here : (expireLost l rest s).records = s.records ++ [s.disposition .lost l] := by
        obtain ⟨retire, -, -⟩ := departed_setLetters .lost l rest s
        rw [State.records_congr (t := depart .lost l (s.setLetters rest)) (by simp [expireLost]),
          State.records, retire]
        simp [State.records]
      simp only [points] at past
      refine ⟨l :: gone, left, by rw [split]; rfl, List.forall_mem_cons.2 ⟨reached, past⟩,
        by rw [taken, rest'], ?_⟩
      rw [taken, records, here, List.append_assoc, List.map_cons, List.singleton_append,
        funext record]
    · exact ⟨[], l :: rest, rfl, by simp, by rw [takeLost, if_neg reached, letters],
        by rw [takeLost, if_neg reached]; simp⟩

/-! ### The decide expiries (R48, R49) -/

theorem decideDue_of_early {s : State}
    (early : ∀ l, s.decideWatch = some l → s.decideReached l = false) : decideDue s = s := by
  unfold decideDue
  split
  case h_1 l watched => rw [if_neg (by simp [early l watched])]
  case h_2 => rfl

theorem takeDecides_of_early (n : Nat) {s : State}
    (early : ∀ l, s.decideWatch = some l → s.decideReached l = false) : takeDecides n s = s := by
  induction n with
  | zero => rfl
  | succ n ih => rw [takeDecides, decideDue_of_early early, ih]

theorem takeDecides_add (m k : Nat) (s : State) :
    takeDecides (m + k) s = takeDecides k (takeDecides m s) := by
  induction m generalizing s with
  | zero => rw [Nat.zero_add]; rfl
  | succ m ih =>
    rw [Nat.succ_add]
    exact ih (decideDue s)

/-- What as many decide expiries as there are letters leave: no watched letter past its decide point. -/
theorem takeDecides_early {s : State} (l : Letter)
    (watched : (takeDecides s.transit.letters.length s).decideWatch = some l) :
    (takeDecides s.transit.letters.length s).decideReached l = false := by
  obtain ⟨-, -, early⟩ := takeDecides_effect Letter.lasting_tag s.transit.letters.length s
    List.countP_le_length
  rw [← early l watched]
  exact (reached_congr (by simp) (by simp) l).2

/-- More decide expiries than letters do no more. -/
theorem takeDecides_enough {s : State} {n : Nat} (enough : s.transit.letters.length ≤ n) :
    takeDecides n s = takeDecides s.transit.letters.length s := by
  obtain ⟨k, rfl⟩ := Nat.exists_eq_add_of_le enough
  rw [takeDecides_add, takeDecides_of_early k fun l => takeDecides_early l]

/-- The state between the lost expiries and the decide expiries. -/
def lostTaken (u : State) : State := takeLost u.transit.letters u

theorem takeExpiries_eq (u : State) :
    takeExpiries u = takeDecides (lostTaken u).transit.letters.length (lostTaken u) := rfl

theorem lostTaken_reached (u : State) (l : Letter) :
    (lostTaken u).lostReached l = u.lostReached l ∧
      (lostTaken u).decideReached l = u.decideReached l :=
  reached_congr (takeLost_letters _ u rfl).2.2.1 (by simp) l

theorem lostTaken_length (u : State) : (lostTaken u).transit.letters.length ≤ u.transit.letters.length :=
  (takeLost_letters _ u rfl).1.length_le

/-- The expiries of an advance are those rows, one after another (R48). -/
theorem execInTurn_expiries {u : State} (released : u.resetLow = false) :
    execInTurn (List.replicate u.transit.letters.length .lostExpiry ++
      List.replicate u.transit.letters.length .decideExpiry) u = .next (takeExpiries u) := by
  have low : (lostTaken u).resetLow = false := by simpa [lostTaken] using released
  rw [execInTurn_append _ _ _ (lostTaken u) (execInTurn_lostExpiry _ _ u released rfl (le_refl _)),
    execInTurn_decideExpiry _ _ low, takeDecides_enough (lostTaken_length u), takeExpiries_eq]

/-- What the decide expiries keep of the list: order, tags and entry positions. -/
theorem takeExpiries_letters {α : Type} {f : Letter → α} (lasting : Letter.Lasting f) (u : State) :
    (takeExpiries u).transit.letters.map f = (lostTaken u).transit.letters.map f ∧
    (takeExpiries u).transit = { u.transit with letters := (takeExpiries u).transit.letters } := by
  obtain ⟨map, transit, -⟩ := takeDecides_effect lasting (lostTaken u).transit.letters.length
    (lostTaken u) List.countP_le_length
  obtain ⟨-, lost, -, -⟩ := takeLost_letters _ u rfl
  refine ⟨map, ?_⟩
  have transit : (takeExpiries u).transit =
      { (lostTaken u).transit with letters := (takeExpiries u).transit.letters } := transit
  rw [transit, show (lostTaken u).transit = _ from lost]

theorem takeExpiries_head {u : State} {l : Letter}
    (head : (takeExpiries u).transit.letters.head? = some l) : (takeExpiries u).lostReached l = false := by
  obtain ⟨rest, -⟩ := takeExpiries_letters Letter.lasting_rest u
  obtain ⟨-, -, -, early⟩ := takeLost_letters _ u rfl
  have first := congrArg List.head? rest
  rw [List.head?_map, List.head?_map, head] at first
  obtain ⟨x, oldest, same⟩ := Option.map_eq_some_iff.1 first.symm
  have entry : l.entryPos = x.entryPos := by
    simp only [Prod.mk.injEq] at same
    exact same.2.1.symm
  have same : (takeExpiries u).lostReached x = (lostTaken u).lostReached x :=
    (reached_congr (by simp [takeExpiries_eq]) (by simp [takeExpiries_eq]) x).1
  rw [← early x oldest, ← (lostTaken_reached u x).1, ← same]
  simp only [State.lostReached, entry]

theorem takeExpiries_transport {u : State}
    (monitor : u.transport.stall = if u.stallWatched then some 0 else none) :
    (takeExpiries u).transport = { u.transport with
      stall := if (takeExpiries u).stallWatched then some 0 else none } := by
  obtain ⟨map, -⟩ := takeExpiries_letters Letter.lasting_tag u
  have none : (takeExpiries u).transit.letters = [] ↔ (lostTaken u).transit.letters = [] := by
    rw [← List.map_eq_nil_iff (f := (·.tag)), map, List.map_eq_nil_iff]
  obtain ⟨lost, -⟩ := takeLost_transport _ u rfl
  have transport : (takeExpiries u).transport = (lostTaken u).transport := by
    simp [takeExpiries_eq]
  have stall : (lostTaken u).transport = { u.transport with
      stall := if (lostTaken u).transit.letters = [] ∧ u.transit.letters ≠ [] then Option.none
        else u.transport.stall } := lost
  have line : (takeExpiries u).transport.line = u.transport.line := by rw [transport, stall]
  rw [transport, stall, monitor]
  simp only [State.stallWatched, line, List.isEmpty_eq_false_iff, beq_iff_eq, Bool.and_eq_true,
    Bool.not_eq_true', List.isEmpty_eq_false_iff, ne_eq, none]
  by_cases empty : (lostTaken u).transit.letters = []
  · by_cases all : u.transit.letters = []
    · simp [empty, all]
    · simp [empty, all]
  · have some : u.transit.letters ≠ [] := fun all => empty (by
      have := lostTaken_length u
      rw [all] at this
      simpa using this)
    simp [empty, some]

/-- Where no letter left has reached its decide point the decide expiries do nothing. -/
theorem takeExpiries_of_early {u : State}
    (early : ∀ l ∈ (lostTaken u).transit.letters, l.state = .collecting → u.decideReached l = false) :
    takeExpiries u = lostTaken u := by
  refine takeDecides_of_early _ fun l watched => ?_
  have collecting := List.find?_some watched
  rw [← early l (List.mem_of_find?_eq_some watched) (by simpa [Letter.collecting] using collecting)]
  exact (lostTaken_reached u l).2

theorem takeExpiries_fill (u : State) (p : PocketIx) :
    ((takeExpiries u).pocket p).fill = (u.pocket p).fill := by
  obtain ⟨-, fills⟩ := takeLost_transport _ u rfl
  rw [takeExpiries_eq, takeDecides_pocket]
  exact fills p

/-- Settles O9: the steps before the expiries, then the expiries. -/
theorem advanceTakesDueExpiries : Obligations.AdvanceTakesDueExpiries := by
  intro s released
  have low : (advanced s).resetLow = false := by simpa [advanced] using released
  have length : s.transit.letters.length = (advanced s).transit.letters.length := by
    rw [advanced_transit]
  have letters : (advanced s).transit.letters = s.transit.letters := by rw [advanced_transit]
  refine ⟨advanced s, takeExpiries (advanced s), exec_of_effect (encAdvance_of_released released),
    advanced_transport s, advanced_transit s, ?_, advanced_frame s, ?_, ?_, fun l => takeExpiries_head,
    fun l watched => takeDecides_early l watched, takeExpiries_transport (by rw [advanced]; rfl),
    fun p => ?_, (takeExpiries_letters Letter.lasting_tag _).2, ?_⟩
  · rintro c rfl
    exact advanced_raised s
  · rintro n rfl
    rw [length]
    exact execInTurn_expiries low
  · obtain ⟨gone, left, split, past, rest, records⟩ := takeLost_gone _ (advanced s) rfl
    refine ⟨gone, left, letters ▸ split, past, ?_, ?_, fun early => ?_⟩
    · have kept : (advanced s).records = s.records := State.records_congr (by simp [advanced])
      rw [← kept, ← records]
      exact State.records_congr (by simp [takeExpiries_eq]; rfl)
    · rw [State.tags, (takeExpiries_letters Letter.lasting_tag _).1]
      exact congrArg _ rest
    · have stays : takeExpiries (advanced s) = lostTaken (advanced s) :=
        takeExpiries_of_early fun l member => early l (by rwa [← rest])
      rw [stays]
      exact ⟨rest, by simp [lostTaken, advanced]⟩
  · rw [takeExpiries_fill]
    exact congrArg Pocket.fill (pocket_congr (by simp [advanced]) p)
  · apply State.eq_of_fields <;> simp [takeExpiries, advanced]

end Sys2Proof.Proofs
end

section
/-! PROOFS. The decide-point expiry with its misses (O11). -/

namespace Sys2Proof.Proofs

open Sys2Proof Sys2Proof.Machine Sys2Proof.Laws

/-! ### Misses (R86) -/

/-- The miss that the expiry of `l` counts for station `st` degrades it. -/
def degrades (l : Letter) (s : State) (st : StationIx) : Bool :=
  missCounted l st s && decide (s.plan.missLimit ≤ satSucc 15 (s.station st).misses)

/-- The STATION_DEGRADED notice of a miss for `l` (R86). -/
def degradedNotice (l : Letter) (s : State) (st : StationIx) : Notice :=
  ⟨.stationDegraded, BitVec.ofNat 8 st.val, 1#4, 0#4,
    BitVec.ofNat 16 (satSucc 15 (s.station st).misses), l.tag.setWidth 32, 0#24⟩

theorem countMiss_raised (l : Letter) (s : State) (st : StationIx) :
    s.Raised (countMiss l s st) (if degrades l s st then [degradedNotice l s st] else []) := by
  unfold countMiss degrades
  by_cases counted : missCounted l st s = true
  · simp only [counted, if_true, Bool.true_and, decide_eq_true_eq]
    by_cases limit : s.plan.missLimit ≤ satSucc 15 (s.station st).misses
    · rw [if_pos limit, if_pos (show s.plan.missLimit ≤ (s.station st).missed.misses from limit)]
      exact (State.Raised.refl (s := s) (by simp) (by simp) (by simp) (by simp)).raise
        (degradedNotice l s st)
    · rw [if_neg limit, if_neg (show ¬s.plan.missLimit ≤ (s.station st).missed.misses from limit)]
      exact .refl (by simp) (by simp) (by simp) (by simp)
  · simp only [counted, Bool.false_and]
    exact .refl rfl rfl rfl rfl

theorem countMiss_other {l : Letter} {s : State} {a b : StationIx} (other : b ≠ a) :
    degrades l (countMiss l s a) b = degrades l s b ∧
      degradedNotice l (countMiss l s a) b = degradedNotice l s b := by
  have station : (countMiss l s a).station b = s.station b := by
    rw [countMiss_station, if_neg fun h => other h.1.symm]
  have plan : (countMiss l s a).plan = s.plan := by simp
  refine ⟨?_, ?_⟩
  · rw [degrades, degrades, missCounted_congr (t := s) l b station, station, plan]
  · rw [degradedNotice, degradedNotice, station]

theorem countMisses_raised_from (l : Letter) (sts : List StationIx) (s : State) (distinct : sts.Nodup) :
    s.Raised (sts.foldl (countMiss l) s) ((sts.filter (degrades l s)).map (degradedNotice l s)) := by
  induction sts generalizing s with
  | nil => exact .refl rfl rfl rfl rfl
  | cons st sts ih =>
    obtain ⟨fresh, distinct⟩ := List.nodup_cons.1 distinct
    have raised := (countMiss_raised l s st).trans (ih (countMiss l s st) distinct)
    have same : (sts.filter (degrades l (countMiss l s st))).map
        (degradedNotice l (countMiss l s st)) =
        (sts.filter (degrades l s)).map (degradedNotice l s) := by
      have apart (x : StationIx) (member : x ∈ sts) : x ≠ st := fun e => fresh (e ▸ member)
      rw [List.filter_congr fun x member => (countMiss_other (apart x member)).1]
      exact List.map_congr_left fun x member =>
        (countMiss_other (apart x (List.mem_of_mem_filter member))).2
    rw [same] at raised
    refine Eq.subst (motive := fun ns => s.Raised _ ns) ?_ raised
    rw [List.filter_cons]
    split <;> rfl

theorem allStations_eq : allStations = List.finRange 4 := by decide

/-- Misses are counted in ascending station order, each degradation with its notice. -/
theorem countMisses_raised (l : Letter) (s : State) : s.Raised (countMisses l s)
    (((List.finRange 4).filter (degrades l s)).map (degradedNotice l s)) := by
  rw [countMisses, allStations_eq]
  exact countMisses_raised_from l _ s (List.nodup_finRange 4)

theorem missCounted_iff (l : Letter) (st : StationIx) (s : State) : missCounted l st s = true ↔
    (s.station st).framing ≠ .off ∧ (s.station st).expectation = .expected ∧
      l.reported[st] = false := by
  rw [missCounted, Bool.and_eq_true, waitedFor_iff, and_assoc, Bool.not_eq_true']

theorem afterMiss_eq (limit : Nat) (x : Station) : x.afterMiss limit =
    { x with
      misses := satSucc 15 x.misses
      expectation := if limit ≤ satSucc 15 x.misses then .degraded else x.expectation } := by
  unfold Station.afterMiss Station.missed
  by_cases reached : limit ≤ satSucc 15 x.misses
  · rw [if_pos reached]
    exact if_pos reached
  · rw [if_neg reached]
    exact if_neg reached

/-- A station has become DEGRADED exactly where a counted miss reached the limit. -/
theorem degradedSince_iff (l : Letter) (s : State) : degradedSince s (countMisses l s) = true ↔
    (List.finRange 4).filter (degrades l s) ≠ [] := by
  rw [degradedSince, allStations_eq, List.any_eq_true, ne_eq, List.filter_eq_nil_iff, not_forall]
  refine exists_congr fun st => ?_
  have expected (counted : missCounted l st s = true) : (s.station st).expectation = .expected :=
    ((missCounted_iff l st s).1 counted).2.1
  rw [countMisses_station, degrades]
  by_cases counted : missCounted l st s = true
  · by_cases reached : s.plan.missLimit ≤ satSucc 15 (s.station st).misses
    · simp [counted, expected counted, afterMiss_eq, reached]
    · simp [counted, expected counted, afterMiss_eq, reached]
  · cases state : (s.station st).expectation <;> simp [counted, state]

/-! ### DECIDE_EXPIRY (R49) -/

theorem decideExpiry_of_reached {s : State} {before after : List Letter} {l : Letter}
    (released : s.resetLow = false) (letters : s.transit.letters = before ++ l :: after)
    (older : ∀ x ∈ before, x.state ≠ .collecting) (state : l.state = .collecting)
    (reached : s.decideReached l = true) : decideExpiry s = expireDecide l s := by
  have watched : s.decideWatch = some l :=
    (decideWatch_eq_some_iff s l).2 ⟨before, after, letters, state, older⟩
  rw [decideExpiry, if_neg (by simp [released]), decideDue, watched]
  exact if_pos reached

/-- The watched letter is the one resolved. -/
theorem resolveOne_of_split {s : State} {before after : List Letter} {l : Letter}
    (letters : s.transit.letters = before ++ l :: after)
    (older : ∀ x ∈ before, x.state ≠ .collecting) (state : l.state = .collecting) :
    s.resolveOne Letter.collecting = { s with
      pockets := (resolveLetter s.plan s.pockets l).1
      transit := { s.transit with
        letters := before ++ (resolveLetter s.plan s.pockets l).2 :: after } } := by
  have first := resolveFirst_split s.plan Letter.collecting s.pockets before after l
    (fun x member => by simpa [Letter.collecting] using older x member)
    (by simp [Letter.collecting, state])
  simp only [State.resolveOne, letters, first]

theorem expireDecide_of_kept {l : Letter} {s : State}
    (kept : (List.finRange 4).filter (degrades l (s.resolveOne Letter.collecting)) = []) :
    expireDecide l s = countMisses l (s.resolveOne Letter.collecting) := by
  refine if_neg fun since => ?_
  exact (degradedSince_iff l _).1 since kept

theorem expireDecide_of_degraded {l : Letter} {s : State}
    (some : (List.finRange 4).filter (degrades l (s.resolveOne Letter.collecting)) ≠ []) :
    expireDecide l s = resolveReady (countMisses l (s.resolveOne Letter.collecting)) :=
  if_pos ((degradedSince_iff l _).2 some)

/-- A test of every letter passes over those that are not COLLECTING at the head of the list. -/
theorem resolveReady_behind {u : State} {before after : List Letter} {x : Letter}
    (letters : u.transit.letters = before ++ x :: after)
    (older : ∀ y ∈ before, y.state ≠ .collecting) (decided : x.collecting = false) :
    resolveReady u = { u with
      pockets := (resolveList u.plan u.readyNow u.pockets after).1
      transit := { u.transit with
        letters := before ++ x :: (resolveList u.plan u.readyNow u.pockets after).2 } } := by
  have passed : u.readyNow x = false := by simp [State.readyNow, decided]
  have behind : resolveList u.plan u.readyNow u.pockets (before ++ x :: after) =
      ((resolveList u.plan u.readyNow u.pockets after).1,
        before ++ x :: (resolveList u.plan u.readyNow u.pockets after).2) := by
    rw [resolveList_append]
    · simp [resolveList, passed]
    · exact fun y member => by simp [State.readyNow, Letter.collecting, older y member]
  simp only [resolveReady, State.resolveWhere, letters, behind]

theorem readyNow_eq (u : State) : u.readyNow =
    fun x => decide (x.state = .collecting) && earlyReady u.stations x :=
  funext fun x => by rw [State.readyNow, Letter.collecting, beq_eq_decide]

/-- The expiry of the watched letter `l`: what it makes of the list, the pockets and the stations. -/
theorem expireDecide_effect {s : State} {before after : List Letter} {l : Letter}
    (letters : s.transit.letters = before ++ l :: after)
    (older : ∀ x ∈ before, x.state ≠ .collecting) (state : l.state = .collecting) :
    ∃ after', ((expireDecide l s).pockets, after') =
        (if (List.finRange 4).filter (degrades l s) = [] then
          ((resolveLetter s.plan s.pockets l).1, after)
        else resolveList s.plan
          (fun x => decide (x.state = .collecting) && earlyReady (expireDecide l s).stations x)
          (resolveLetter s.plan s.pockets l).1 after) ∧
      (expireDecide l s).transit = { s.transit with
        letters := before ++ (resolveLetter s.plan s.pockets l).2 :: after' } ∧
      (∀ st, (expireDecide l s).station st = if missCounted l st s = true then
        (s.station st).afterMiss s.plan.missLimit else s.station st) ∧
      s.Raised (expireDecide l s)
        (((List.finRange 4).filter (degrades l s)).map (degradedNotice l s)) := by
  have resolved := resolveOne_of_split letters older state
  generalize hu : s.resolveOne Letter.collecting = u at resolved
  have same : degrades l u = degrades l s ∧ degradedNotice l u = degradedNotice l s := by
    rw [resolved]
    exact ⟨rfl, rfl⟩
  have raised := (countMisses_raised l u).congr_left (s' := s) (by rw [resolved]) (by rw [resolved])
    (by rw [resolved]) (by rw [resolved])
  have stations (st : StationIx) : (countMisses l u).station st = if missCounted l st s = true then
      (s.station st).afterMiss s.plan.missLimit else s.station st := by
    rw [countMisses_station, resolved]
    rfl
  rw [same.1, same.2] at raised
  by_cases none : (List.finRange 4).filter (degrades l s) = []
  · have kept : expireDecide l s = countMisses l u := by
      rw [expireDecide_of_kept (by rw [hu, same.1]; exact none), hu]
    rw [kept, if_pos none]
    exact ⟨after, by simp [resolved], by simp [resolved], stations, raised⟩
  · have tested : expireDecide l s = resolveReady (countMisses l u) := by
      rw [expireDecide_of_degraded (by rw [hu, same.1]; exact none), hu]
    have left : (countMisses l u).transit.letters =
        before ++ (resolveLetter s.plan s.pockets l).2 :: after := by simp [resolved]
    have behind := resolveReady_behind left older (resolveLetter_collecting _ _ _)
    have plan : (countMisses l u).plan = s.plan := by simp [resolved]
    have pockets : (countMisses l u).pockets = (resolveLetter s.plan s.pockets l).1 := by
      simp [resolved]
    have framed : (resolveReady (countMisses l u)).stations = (countMisses l u).stations := by simp
    have transit : (countMisses l u).transit = { s.transit with
        letters := before ++ (resolveLetter s.plan s.pockets l).2 :: after } := by simp [resolved]
    rw [readyNow_eq, ← framed, plan, pockets] at behind
    have quiet : (countMisses l u).Raised (resolveReady (countMisses l u)) [] :=
      .refl (by simp) (by simp) (by simp) (by simp)
    have raised := raised.trans quiet
    rw [List.append_nil] at raised
    rw [tested, if_neg none]
    refine ⟨_, congrArg (·, _) (congrArg State.pockets behind), ?_, fun st => ?_, raised⟩
    · rw [congrArg State.transit behind, transit]
    · rw [← stations]
      exact station_congr framed st

/-- Settles O11: the resolution of the watched letter, the misses in station order, and the test that a degradation brings. -/
theorem decideExpiryDecidesAndCountsMisses : Obligations.DecideExpiryDecidesAndCountsMisses := by
  refine ⟨fun s before after l released letters older state reached => ?_, fun s early => ?_⟩
  · obtain ⟨after', table, transit, stations, raised⟩ := expireDecide_effect letters older state
    have station (st : StationIx) (degraded : degrades l s st = true) :
        satSucc 15 (s.station st).misses = ((expireDecide l s).station st).misses := by
      have counted : missCounted l st s = true := (Bool.and_eq_true_iff.1 degraded).1
      rw [stations, if_pos counted, afterMiss_eq]
    have notices : ((List.finRange 4).filter (degrades l s)).map (degradedNotice l s) =
        ((List.finRange 4).filter (degrades l s)).map fun st =>
          ⟨.stationDegraded, BitVec.ofNat 8 st.val, 1#4, 0#4,
            BitVec.ofNat 16 ((expireDecide l s).station st).misses, l.tag.setWidth 32, 0#24⟩ := by
      refine List.map_congr_left fun st member => ?_
      rw [degradedNotice, station st (List.of_mem_filter member)]
    refine ⟨expireDecide l s, (resolveLetter s.plan s.pockets l).2, after',
      (resolveLetter s.plan s.pockets l).1,
      exec_of_effect (decideExpiry_of_reached released letters older state reached),
      fun loading => ?_, fun sum d decided summed decision => ?_, fun st => ?_,
      fun st => missCounted_iff l st s, ?_, transit, ?_⟩
    · rw [resolveLetter_of_loading loading]
      exact ⟨rfl, rfl⟩
    · rw [resolveLetter_of_decided decided, ← summed, ← decision]
      exact ⟨rfl, rfl⟩
    · rw [stations, afterMiss_eq]
    · rintro degraded rfl
      exact ⟨table, notices ▸ raised⟩
    · apply State.eq_of_fields <;> simp
  · refine exec_of_effect ?_
    rw [effect, decideExpiry, decideDue_of_early early, ite_self]

end Sys2Proof.Proofs
end

section
/-! PROOFS. The entry assembly, and entries taken and refused (O14, O15, O16). -/

namespace Sys2Proof.Proofs

open Sys2Proof Sys2Proof.Machine Sys2Proof.Laws

/-! ### The assembly (R58) -/

theorem inInductionRing_iff (s : State) (offset : Nat) : s.inInductionRing offset = true ↔
    ∃ l, s.plan.layout = some l ∧ offset < 2 * l.inductionCount := by
  unfold State.inInductionRing
  cases s.plan.layout <;> simp

theorem inductionRingWrite_of_inside {s : State} {offset : Nat} (released : s.resetLow = false)
    (inside : s.inInductionRing offset = true) (data : Word) (e : Enables) :
    inductionRingWrite offset data e s = inductionSnoop offset data e s := by
  simp [inductionRingWrite, released, inside]

/-- The INDUCTION_FRAMING notice in the words of R58. -/
def framing (c : FramingBreak) (index : Nat) (held : Option Nat) : Notice :=
  { kind := .inductionFraming, cause := c.code, arg16 := BitVec.ofNat 16 index
    arg32 := match held with
      | some i => BitVec.ofNat 32 i
      | none => 0xFFFFFFFF#32 }

/-- A snoop that sets the assembly, and raises a framing notice or none. -/
structure Assembled (a : EntryAssembly) (ns : List Notice) (s t : State) : Prop where
  transit : t.transit = { s.transit with assembly := a }
  raised  : s.Raised t ns
  frame   : { t with transit := s.transit, notice := s.notice, noticeReq := s.noticeReq } = s

theorem assembled_setAssembly (a : EntryAssembly) (s : State) : Assembled a [] s (setAssembly a s) :=
  ⟨rfl, .refl rfl rfl rfl rfl, rfl⟩

theorem assembled_raise {a : EntryAssembly} {ns : List Notice} {s t : State} (h : Assembled a ns s t)
    (n : Notice) : Assembled a (ns ++ [n]) s (raise n t) := by
  obtain ⟨transit, raised, frame⟩ := h
  refine ⟨by simpa using transit, raised.raise n, Eq.trans ?_ frame⟩
  apply State.eq_of_fields <;> simp

/-- The framing notice of a write that breaks the assembly off. -/
theorem assembled_framing (c : FramingBreak) (i : Nat) (held : Option Nat) (a : EntryAssembly)
    (s : State) : Assembled a [framing c i held] s (framingNotice c i held (setAssembly a s)) :=
  assembled_raise (assembled_setAssembly a s) (framing c i held)

theorem assembled_framing_waiting {s : State} (waiting : s.transit.assembly = .waiting)
    (c : FramingBreak) (i : Nat) : Assembled .waiting [framing c i none] s (framingNotice c i none s) := by
  have same : setAssembly .waiting s = s := by
    rw [setAssembly, ← waiting]
  have broken := assembled_framing c i none .waiting s
  rwa [same] at broken

/-- What the assembly holds (R58). -/
def held (a : EntryAssembly) : Option Nat :=
  match a with
  | .waiting => none
  | .holding i _ => some i

/-- A snoop that does not complete an entry (R58). -/
theorem inductionSnoop_assembled {s : State} {offset : Nat} {e : Enables} (data : Word)
    (other : ∀ i w, s.transit.assembly = .holding i w → ¬(e = 0xF#4 ∧ offset = 2 * i + 1)) :
    Assembled (if e = 0xF#4 ∧ offset % 2 = 0 then .holding (offset / 2) data else .waiting)
      (if held s.transit.assembly = none ∧ e = 0xF#4 ∧ offset % 2 = 0 then []
        else [framing (if e = 0xF#4 then .outOfSequence else .partialWrite) (offset / 2)
          (held s.transit.assembly)]) s (inductionSnoop offset data e s) := by
  unfold inductionSnoop
  cases assembly : s.transit.assembly with
  | waiting =>
    by_cases full : e = 0xF#4
    · by_cases even : offset % 2 = 0
      · simp only [fullWrite, full, even, held, beq_self_eq_true, decide_true, and_self, if_true]
        exact assembled_setAssembly _ s
      · simp only [fullWrite, full, even, held, beq_self_eq_true, decide_false, and_false, if_true,
          if_false]
        exact assembled_framing_waiting assembly _ _
    · simp only [fullWrite, full, held, beq_false_of_ne full, false_and, and_false, if_false]
      exact assembled_framing_waiting assembly _ _
  | holding i w =>
    have idle : ¬(some i = (none : Option Nat) ∧ e = 0xF#4 ∧ offset % 2 = 0) := by simp
    by_cases full : e = 0xF#4
    · by_cases even : offset % 2 = 0
      · simp only [fullWrite, full, even, held, beq_self_eq_true, decide_true, and_self, if_true]
        exact assembled_framing _ _ _ _ s
      · have apart : offset / 2 ≠ i := fun same => other i w assembly ⟨full, by omega⟩
        simp only [fullWrite, full, even, held, beq_self_eq_true, decide_false, and_false, if_true,
          if_false, apart]
        exact assembled_framing _ _ _ _ s
    · simp only [fullWrite, full, held, beq_false_of_ne full, false_and, and_false, if_false]
      exact assembled_framing _ _ _ _ s

theorem framing_eq (c : FramingBreak) (i : Nat) (h : Option Nat) : framing c i h =
    ⟨.inductionFraming, 0#8, 0#4, c.code, BitVec.ofNat 16 i,
      (h.map (BitVec.ofNat 32)).getD 0xFFFFFFFF#32, 0#24⟩ := by
  cases h <;> rfl

/-- Settles O14: the snoop's cases, by the assembly, the byte enables and the word of the record. -/
theorem inductionAssemblyFollowsWrites : Obligations.InductionAssemblyFollowsWrites := by
  refine ⟨inInductionRing_iff, fun s offset data e released inside other => ?_⟩
  obtain ⟨transit, raised, frame⟩ := inductionSnoop_assembled data other
  refine ⟨inductionSnoop offset data e s,
    exec_of_effect (inductionRingWrite_of_inside released inside data e), transit, ?_, frame⟩
  rintro h rfl
  rw [framing_eq] at raised
  have code : (if e = 0xF#4 then FramingBreak.outOfSequence else .partialWrite).code =
      if e = 0xF#4 then 1#4 else 2#4 := by split <;> rfl
  rw [code] at raised
  exact raised

/-! ### An entry completes (R60, R61) -/

theorem inductionSnoop_completes {s : State} {i : Nat} {first : Word}
    (assembly : s.transit.assembly = .holding i first) (data : Word) :
    inductionSnoop (2 * i + 1) data 0xF#4 s = completeEntry first data (setAssembly .waiting s) := by
  have odd : ¬(2 * i + 1) % 2 = 0 := by omega
  have index : (2 * i + 1) / 2 = i := by omega
  simp only [inductionSnoop, assembly, fullWrite, beq_self_eq_true, odd, decide_false, index, if_true]

theorem completeEntry_of_taken {s : State} {first second : Word} {e : Entry}
    (entry : entryOf first second = some e)
    (passed : s.entryRefusal (some e) (entryTag second) = none) :
    completeEntry first second s = takeEntry e s := by
  rw [completeEntry, entry, passed]

theorem completeEntry_of_refused {s : State} {first second : Word} {cause : EntryRefusal} {arg : Word}
    (refused : s.entryRefusal (entryOf first second) (entryTag second) = some (cause, arg)) :
    completeEntry first second s =
      raise ⟨.untrackedEntry, 0#8, 0#4, cause.code, entryTag second, arg, 0#24⟩ s := by
  rw [completeEntry, refused]

theorem letterBySlot_eq_none {s : State} {slot : BitVec 8}
    (free : ∀ l ∈ s.transit.letters, slotOf l.tag ≠ slot) : s.letterBySlot slot = none :=
  List.find?_eq_none.2 fun l member => by simpa using free l member

theorem entryRefusal_of_passed {s : State} {e : Entry} {tag : Tag} (line : s.transport.line ≠ .stopped)
    (room : s.transitCount ≠ 32) (sum : s.occupancySum ≠ 64)
    (order : ∀ last, s.transit.lastTag = some last → tagOlder last tag = true)
    (free : s.letterBySlot (slotOf tag) = none) : s.entryRefusal (some e) tag = none := by
  have older : s.transit.lastTag.filter (fun t => !tagOlder t tag) = none :=
    Option.filter_eq_none_iff.2 fun last same => by simp [order last same]
  simp [State.entryRefusal, line, room, sum, older, free, Config.maxTransit, Config.maxSum]

theorem entryClose_eq (s : State) : s.entryClose = (s.transit.gap.map (fun g =>
    decide (g < (s.plan.layout.map Layout.minGap).getD 0))).getD false := by
  unfold State.entryClose State.layoutNat
  cases s.transit.gap <;> cases s.plan.layout <;> rfl

/-- The occupancy latch after an evaluation, in the words of R57. -/
theorem nextOccupancy_eq (latch : Bool) (sum : Nat) : nextOccupancy latch sum =
    if 48 ≤ sum then true else if sum ≤ 39 then false else latch := rfl

theorem evalOccupancy_raised (s : State) : s.Raised (evalOccupancy s)
    (if (evalOccupancy s).transport.feedHold = s.transport.feedHold then []
      else [(evalOccupancy s).feedHoldNotice]) := by
  have raised := (evalFeedHold_raised { s with transport := { s.transport with
    occupancy := nextOccupancy s.transport.occupancy s.occupancySum } }).congr_left (s' := s)
    rfl rfl rfl rfl
  have notice : (evalOccupancy s).feedHoldNotice = State.feedHoldNotice { s with transport := {
      s.transport with occupancy := nextOccupancy s.transport.occupancy s.occupancySum } } :=
    feedHoldNotice_same (by simp [evalOccupancy]) (by simp [evalOccupancy]) (by simp) (by simp)
  have level : (evalOccupancy s).transport.feedHold = State.holdLevel { s with transport := {
      s.transport with occupancy := nextOccupancy s.transport.occupancy s.occupancySum } } := by
    rw [evalOccupancy, evalFeedHold_transport]
  rw [notice, level]
  exact raised

/-- What the stall monitor shows once an entry is taken (R61, step 5). -/
theorem takeEntry_stall (e : Entry) (s : State) : (takeEntry e s).transport.stall =
    if s.transit.letters = [] then (if s.transport.line = .running then some 0 else none)
    else s.transport.stall := by
  have letters : (evalOccupancy (withEntry e s)).transit.letters =
      s.transit.letters ++ [s.newLetter e] := by simp [withEntry]
  have line : (evalOccupancy (withEntry e s)).transport.line = s.transport.line := by
    simp [withEntry]
  rw [takeEntry_eq, restartStallIfFirst, State.transitCount, letters, List.length_append]
  by_cases empty : s.transit.letters = []
  · rw [if_pos empty, if_pos (by simp [empty]), restartStall_transport]
    simp [State.stallWatched, withEntry]
  · rw [if_neg empty, if_neg (by simpa using empty)]
    simp [withEntry]

theorem takeEntry_transit (e : Entry) (s : State) : (takeEntry e s).transit =
    ⟨s.transit.letters ++ [s.newLetter e], s.transit.assembly, some e.tag, some 0⟩ := by
  simp [takeEntry]

/-- The latch, FEED_HOLD and the notice of a taken entry (R56, R57). -/
theorem takeEntry_latch (e : Entry) (s : State) :
    (takeEntry e s).transport.occupancy =
      nextOccupancy s.transport.occupancy (takeEntry e s).occupancySum ∧
    (takeEntry e s).transport.feedHold = (takeEntry e s).holdLevel ∧
    s.Raised (takeEntry e s)
      (if (takeEntry e s).transport.feedHold = s.transport.feedHold then []
        else [(takeEntry e s).feedHoldNotice]) := by
  have transport := restartStallIfFirst_transport (evalOccupancy (withEntry e s))
  have sum : (takeEntry e s).occupancySum = (withEntry e s).occupancySum := by
    simp [takeEntry_eq, State.occupancySum, State.transitCount, State.retireCount]
  have same := State.hold_congr (s := evalOccupancy (withEntry e s)) (t := takeEntry e s)
    (by rw [takeEntry_eq, transport]) (by rw [takeEntry_eq, transport]) (by simp [takeEntry_eq])
    (by simp [takeEntry_eq])
  have hold : (takeEntry e s).transport.feedHold =
      (evalOccupancy (withEntry e s)).transport.feedHold := by rw [takeEntry_eq, transport]
  refine ⟨?_, ?_, ?_⟩
  · rw [sum, takeEntry_eq, transport, evalOccupancy_transport]
    rfl
  · rw [hold, same.1]
    exact evalOccupancy_feedRight _
  · have entered := (evalOccupancy_raised (withEntry e s)).trans
      (.refl (t := takeEntry e s) (by simp [takeEntry_eq]) (by rw [takeEntry_eq, transport])
        (by simp [takeEntry_eq]) (by simp [takeEntry_eq]))
    rw [List.append_nil, ← hold, ← same.2.2] at entered
    exact entered.congr_left rfl rfl rfl rfl

/-- Settles O15: a passed entry is taken with its fields, and the latch and the monitor follow. -/
theorem entryTaken : Obligations.EntryTaken := by
  refine ⟨fun s => ⟨rfl, rfl, rfl⟩, fun s i first data e released inside assembly line entry room sum
    order free => ?_⟩
  have tag : entryTag data = e.tag := (entryOf_tag entry).symm
  have taken : inductionRingWrite (2 * i + 1) data 0xF#4 s = takeEntry e (setAssembly .waiting s) := by
    rw [inductionRingWrite_of_inside released inside, inductionSnoop_completes assembly]
    refine completeEntry_of_taken entry ?_
    rw [tag]
    exact entryRefusal_of_passed (s := setAssembly .waiting s) line room.ne sum.ne order
      (letterBySlot_eq_none free)
  obtain ⟨latch, hold, raised⟩ := takeEntry_latch e (setAssembly .waiting s)
  refine ⟨_, exec_of_effect taken, ?_, latch, hold, takeEntry_stall e (setAssembly .waiting s),
    ?_, ?_, raised.congr_left rfl rfl rfl rfl, ?_⟩
  · rw [takeEntry_transit, State.newLetter, entryClose_eq]
    rfl
  · rw [takeEntry_eq, restartStallIfFirst_transport]
    simp [withEntry]
  · rw [takeEntry_eq, restartStallIfFirst_transport]
    simp [withEntry]
  · apply State.eq_of_fields <;> simp

theorem entryRefusal_of_full {s : State} {e : Option Entry} {tag : Tag}
    (line : s.transport.line ≠ .stopped) (good : e.isSome = true)
    (full : s.transitCount = 32 ∨ s.occupancySum = 64) : s.entryRefusal e tag =
      some (.full, field s.transitCount 0 ||| field s.retireCount 8) := by
  have some : e.isNone = false := by simpa using good
  simp only [State.entryRefusal, line, some, if_false, Bool.false_eq_true]
  exact if_pos full

theorem entryRefusal_of_duplicate {s : State} {e : Option Entry} {tag : Tag} {l : Letter}
    (line : s.transport.line ≠ .stopped) (good : e.isSome = true) (room : s.transitCount ≠ 32)
    (sum : s.occupancySum ≠ 64)
    (order : ∀ last, s.transit.lastTag = some last → tagOlder last tag = true)
    (found : s.letterBySlot (slotOf tag) = some l) :
    s.entryRefusal e tag = some (.duplicate, l.tag.setWidth 32) := by
  have some : e.isNone = false := by simpa using good
  have older : s.transit.lastTag.filter (fun t => !tagOlder t tag) = none :=
    Option.filter_eq_none_iff.2 fun last same => by simp [order last same]
  simp [State.entryRefusal, line, some, room, sum, older, found, Config.maxTransit, Config.maxSum]

/-- Settles O16: each refusal is the first check of R60 that fails. -/
theorem entryRefused : Obligations.EntryRefused := by
  refine ⟨fun _ => rfl, entryOf_eq_some_iff, by decide, fun s i first data cause arg released inside
    assembly checks => ?_⟩
  have refused : s.entryRefusal (entryOf first data) (entryTag data) = some (cause, arg) := by
    rcases checks with ⟨rfl, rfl, stopped⟩ | ⟨line, rfl, rfl, bad⟩ | ⟨line, rfl, full, good, rfl⟩ |
      ⟨line, rfl, room, sum, good, last, lastTag, older, rfl⟩ |
      ⟨line, rfl, room, sum, good, order, l, found, rfl⟩
    · exact if_pos stopped
    · simp [State.entryRefusal, line, bad]
    · exact entryRefusal_of_full line good full
    · exact (entryRefusal_eq_tagOrder_iff _ _ _ _).2
        ⟨line, good, ⟨room, sum⟩, last, lastTag, older, rfl⟩
    · exact entryRefusal_of_duplicate line good room sum order found
  have run : inductionRingWrite (2 * i + 1) data 0xF#4 s = raise
      ⟨.untrackedEntry, 0#8, 0#4, cause.code, entryTag data, arg, 0#24⟩ (setAssembly .waiting s) := by
    rw [inductionRingWrite_of_inside released inside, inductionSnoop_completes assembly]
    exact completeEntry_of_refused refused
  obtain ⟨transit, raised, frame⟩ := assembled_raise (assembled_setAssembly .waiting s)
    ⟨.untrackedEntry, 0#8, 0#4, cause.code, entryTag data, arg, 0#24⟩
  exact ⟨_, exec_of_effect run, transit, raised, frame⟩

end Sys2Proof.Proofs
end

section
/-! PROOFS. The record assembly, rejected records and their checks (O17, O18, O19, O21). -/

namespace Sys2Proof.Proofs

open Sys2Proof Sys2Proof.Machine Sys2Proof.Laws

/-! ### The assembly (R73, R74) -/

theorem stationRingWrite_of_inside {s : State} {st : StationIx} {offset : Nat}
    (released : s.resetLow = false) (inside : offset < 8 * s.stationSlots st) (data : Word)
    (e : Enables) : stationRingWrite st offset data e s = stationSnoop st offset data e s := by
  simp [stationRingWrite, released, inside]

theorem stationSnoop_of_off {s : State} {st : StationIx} (off : (s.station st).framing = .off)
    (offset : Nat) (data : Word) (e : Enables) : stationSnoop st offset data e s = s := by
  rw [stationSnoop, off]

theorem stationSnoop_of_on {s : State} {st : StationIx} (on : (s.station st).framing ≠ .off)
    (offset : Nat) (data : Word) (e : Enables) :
    stationSnoop st offset data e s = assembleWord st offset data e s := by
  unfold stationSnoop
  split
  case h_1 off => exact absurd off on
  all_goals rfl

theorem fullWrite_iff (e : Enables) : fullWrite e = true ↔ e = 0xF#4 := by simp [fullWrite]

theorem startAssembly_eq (offset : Nat) (data : Word) (e : Enables) : startAssembly offset data e =
    if e = 0xF#4 ∧ offset % 8 = 0 then .collecting (offset / 8) [data] else .seek := by
  simp only [startAssembly, fullWrite_iff]

theorem assembleWord_of_seek {s : State} {st : StationIx} (seek : (s.station st).assembly = .seek)
    (offset : Nat) (data : Word) (e : Enables) : assembleWord st offset data e s =
      s.setStation st { s.station st with assembly := startAssembly offset data e } := by
  rw [assembleWord, seek]

theorem assembleWord_of_expected {s : State} {st : StationIx} {slot : Nat} {ws : List Word}
    (collecting : (s.station st).assembly = .collecting slot ws) (data : Word) :
    assembleWord st (8 * slot + ws.length) data 0xF#4 s = collectWord st slot ws data s := by
  rw [assembleWord, collecting]
  exact if_pos ⟨rfl, rfl⟩

theorem assembleWord_of_other {s : State} {st : StationIx} {slot offset : Nat} {ws : List Word}
    {e : Enables} (collecting : (s.station st).assembly = .collecting slot ws)
    (other : ¬(e = 0xF#4 ∧ offset = 8 * slot + ws.length)) (data : Word) :
    assembleWord st offset data e s = alignReject st (8 * slot + ws.length) offset data e s := by
  rw [assembleWord, collecting]
  exact if_neg fun h => other ⟨(fullWrite_iff e).1 h.1, h.2⟩

/-- Settles O17: the snoop by framing and assembly. -/
theorem stationAssemblyCollects : Obligations.StationAssemblyCollects := by
  refine ⟨fun s st => ⟨rfl, ?_⟩, fun s st offset data e released inside => ⟨fun off => ?_,
    fun on seek => ?_, fun slot ws on collecting short full word => ?_⟩⟩
  · unfold State.stationSlots
    cases s.plan.layout <;> rfl
  all_goals refine exec_of_effect ((stationRingWrite_of_inside released inside data e).trans ?_)
  · exact stationSnoop_of_off off _ _ _
  · rw [stationSnoop_of_on on, assembleWord_of_seek seek, startAssembly_eq]
    rfl
  · subst full word
    rw [stationSnoop_of_on on, assembleWord_of_expected collecting]
    exact if_pos short

/-! ### Rejects (R75, R79, R80, R81) -/

/-- A change of station `st` to the context `x`, with the notices `ns`. -/
structure StationSet (st : StationIx) (x : Station) (ns : List Notice) (s t : State) : Prop where
  stations : t.stations = s.stations.set st.val x st.isLt
  raised   : s.Raised t ns
  frame    : { t with stations := s.stations, notice := s.notice, noticeReq := s.noticeReq } = s

theorem stationSet_setStation (st : StationIx) (x : Station) (s : State) :
    StationSet st x [] s (s.setStation st x) := ⟨rfl, .refl rfl rfl rfl rfl, rfl⟩

theorem stationSet_station {st : StationIx} {x : Station} {ns : List Notice} {s t : State}
    (h : StationSet st x ns s t) : t.station st = x := by
  rw [station_congr (t := s.setStation st x) h.stations, setStation_station, if_pos rfl]

theorem stationSet_again {st : StationIx} {x : Station} {ns : List Notice} {s t : State}
    (h : StationSet st x ns s t) (y : Station) : StationSet st y ns s (t.setStation st y) := by
  obtain ⟨stations, raised, frame⟩ := h
  refine ⟨by simp [stations], ?_, frame⟩
  have set := raised.trans (.refl (t := t.setStation st y) rfl rfl rfl rfl)
  rwa [List.append_nil] at set

/-- A context that is set twice is set once. -/
theorem stationSet_of_set {st : StationIx} {x y : Station} {ns : List Notice} {s t : State}
    (h : StationSet st x ns (s.setStation st y) t) : StationSet st x ns s t := by
  obtain ⟨stations, raised, frame⟩ := h
  refine ⟨by simpa using stations, raised.congr_left rfl rfl rfl rfl, ?_⟩
  calc { t with stations := s.stations, notice := s.notice, noticeReq := s.noticeReq }
      = { { t with stations := (s.setStation st y).stations, notice := s.notice
                   noticeReq := s.noticeReq } with stations := s.stations } := rfl
    _ = { s.setStation st y with stations := s.stations } :=
        congrArg (fun u : State => { u with stations := s.stations }) frame

theorem stationSet_raise {st : StationIx} {x : Station} {ns : List Notice} {s t : State}
    (h : StationSet st x ns s t) (n : Notice) : StationSet st x (ns ++ [n]) s (raise n t) := by
  obtain ⟨stations, raised, frame⟩ := h
  refine ⟨by simpa using stations, raised.raise n, Eq.trans ?_ frame⟩
  apply State.eq_of_fields <;> simp

/-- The STATION_STATE notice of a change from context `old` to framing `new` (R81). -/
def stationNotice (st : StationIx) (new : Framing) (old : Station) (cause : StationCause) (arg : Word) :
    Notice :=
  ⟨.stationState, BitVec.ofNat 8 st.val, BitVec.ofNat 4 new.code, cause.code,
    BitVec.ofNat 16 (old.framing.code + 16 * old.expectation.code), arg, 0#24⟩

theorem stationSet_change {st : StationIx} {x : Station} {ns : List Notice} {s t : State}
    (h : StationSet st x ns s t) (y : Station) (cause : StationCause) (arg : Word) :
    StationSet st y (ns ++ [stationNotice st y.framing x cause arg]) s
      (changeStation st y cause arg t) := by
  rw [← stationSet_station h]
  exact stationSet_raise (stationSet_again h y) _

/-- The context of station `st` as a reject of an unlocked or LOCKED station leaves its counter (R75, R79, R80). -/
def countedReject (x : Station) : Station := { x with rejects := satSucc 65535 x.rejects }

theorem stationSet_loseLock {st : StationIx} {x : Station} {ns : List Notice} {s t : State}
    (h : StationSet st x ns s t) (cause : StationCause) :
    StationSet st { x with framing := .hunt, faultRun := 0 }
      (ns ++ [stationNotice st .hunt x cause 0#32]) s (loseLock st cause t) := by
  rw [loseLock, stationSet_station h]
  exact stationSet_change h _ cause 0#32

/-- The RECORD_REJECT notice (R81). -/
def rejectNotice (st : StationIx) (cause : RejectCause) (arg16 : BitVec 16) (arg32 : Word) : Notice :=
  ⟨.recordReject, BitVec.ofNat 8 st.val, 0#4, cause.code, arg16, arg32, 0#24⟩

theorem stationSet_reject {st : StationIx} {x : Station} {ns : List Notice} {s t : State}
    (h : StationSet st x ns s t) (cause : RejectCause) (arg16 : BitVec 16) (arg32 : Word) :
    StationSet st x (ns ++ [rejectNotice st cause arg16 arg32]) s (recordReject st cause arg16 arg32 t) :=
  stationSet_raise h _

theorem alignReject_hunt {s : State} {st : StationIx} (hunt : (s.station st).framing ≠ .locked)
    (expected offset : Nat) (data : Word) (e : Enables) :
    alignReject st expected offset data e s = s.setStation st
      { countedReject (s.station st) with assembly := startAssembly offset data e } := by
  unfold alignReject
  simp only [Station.rejected]
  split
  case h_1 locked => exact absurd locked hunt
  all_goals rfl

theorem alignReject_locked {s : State} {st : StationIx} (locked : (s.station st).framing = .locked)
    (expected offset : Nat) (data : Word) (e : Enables) :
    StationSet st
      { countedReject (s.station st) with
        framing := .hunt, assembly := startAssembly offset data e, faultRun := 0 }
      [rejectNotice st .align (BitVec.ofNat 16 offset) (BitVec.ofNat 32 expected),
        stationNotice st .hunt (s.station st) .align 0#32] s
      (alignReject st expected offset data e s) := by
  have run : alignReject st expected offset data e s = loseLock st .align
      (recordReject st .align (BitVec.ofNat 16 offset) (BitVec.ofNat 32 expected)
        (s.setStation st
          { countedReject (s.station st) with assembly := startAssembly offset data e })) := by
    unfold alignReject
    simp only
    split
    case h_1 => rfl
    all_goals
      rename_i other
      exact absurd (locked.symm.trans other) nofun
  rw [run]
  exact stationSet_loseLock (stationSet_reject (stationSet_setStation st { countedReject (s.station st) with
    assembly := startAssembly offset data e } s) _ _ _) .align

theorem stationNotice_locked {x : Station} (locked : x.framing = .locked) (st : StationIx)
    (new : Framing) (cause : StationCause) (arg : Word) : stationNotice st new x cause arg =
      ⟨.stationState, BitVec.ofNat 8 st.val, BitVec.ofNat 4 new.code, cause.code,
        BitVec.ofNat 16 (2 + 16 * x.expectation.code), arg, 0#24⟩ := by
  rw [stationNotice, locked]
  rfl

theorem hunt_of_on {x : Station} (on : x.framing ≠ .off) (unlocked : x.framing ≠ .locked) :
    x.framing = .hunt := by
  cases framing : x.framing with
  | off => exact absurd framing on
  | hunt => rfl
  | locked => exact absurd framing unlocked

/-- A complete record that a check rejects, in HUNT (R79). -/
theorem rejectRecord_hunt {s : State} {st : StationIx} (hunt : (s.station st).framing ≠ .locked)
    (slot : Nat) (ws : List Word) (cause : RejectCause) :
    rejectRecord st slot ws cause s = s.setStation st (countedReject (s.station st)) := by
  have station : (s.setStation st (s.station st).rejected).station st = (s.station st).rejected := by
    simp
  unfold rejectRecord
  simp only [station]
  split
  case h_1 locked => exact absurd locked hunt
  all_goals rfl

/-- A complete record that a check rejects, in LOCKED (R80). -/
theorem rejectRecord_locked {s : State} {st : StationIx} (locked : (s.station st).framing = .locked)
    (slot : Nat) (ws : List Word) (cause : RejectCause) :
    StationSet st
      { countedReject (s.station st) with
        framing := if (s.station st).faultRun < 2 then .locked else .hunt
        faultRun := if (s.station st).faultRun < 2 then (s.station st).faultRun + 1 else 0 }
      (rejectNotice st cause (recordTag ws) (rejectArg cause slot (s.station st)) ::
        if (s.station st).faultRun < 2 then []
        else [stationNotice st .hunt (s.station st) .faultRun 0#32]) s
      (rejectRecord st slot ws cause s) := by
  have station : (s.setStation st (s.station st).rejected).station st = (s.station st).rejected := by
    simp
  have rejected := stationSet_reject (stationSet_setStation st (countedReject (s.station st)) s) cause
    (recordTag ws) (rejectArg cause slot (s.station st))
  have run : rejectRecord st slot ws cause s = raiseFaultRun st (recordReject st cause (recordTag ws)
      (rejectArg cause slot (s.station st)) (s.setStation st (countedReject (s.station st)))) := by
    unfold rejectRecord
    simp only [station]
    rw [show (s.station st).rejected.framing = .locked from locked]
    rfl
  have risen := stationSet_again rejected { countedReject (s.station st) with
    faultRun := (s.station st).faultRun + 1 }
  rw [run, raiseFaultRun, stationSet_station rejected]
  by_cases more : (s.station st).faultRun < 2
  · have below : ¬3 ≤ (s.station st).faultRun + 1 := by omega
    simp only [if_pos more]
    rw [if_neg (show ¬Config.faultRunLimit ≤ (countedReject (s.station st)).faultRun + 1 from below),
      ← locked]
    exact risen
  · have reached : 3 ≤ (s.station st).faultRun + 1 := by omega
    simp only [if_neg more]
    rw [if_pos (show Config.faultRunLimit ≤ (countedReject (s.station st)).faultRun + 1 from reached)]
    exact stationSet_loseLock risen .faultRun

/-- A record that has come to its last word is checked, the assembly beginning anew (R74). -/
theorem stationSnoop_of_complete {s : State} {st : StationIx} {slot : Nat} {ws : List Word}
    (on : (s.station st).framing ≠ .off) (collecting : (s.station st).assembly = .collecting slot ws)
    (full : ws.length = 7) (data : Word) : stationSnoop st (8 * slot + 7) data 0xF#4 s =
      completeRecord st slot (ws ++ [data]) (s.setStation st { s.station st with
        assembly := .collecting ((slot + 1) % s.stationSlots st) [] }) := by
  rw [stationSnoop_of_on on, ← full, assembleWord_of_expected collecting, collectWord,
    if_neg (by omega)]

/-- The checks do not see the assembly. -/
theorem recordFault_setAssembly (s : State) (st : StationIx) (a : RecordAssembly) (ws : List Word) :
    (s.setStation st { s.station st with assembly := a }).recordFault st ws = s.recordFault st ws := by
  have station : (s.setStation st { s.station st with assembly := a }).station st =
      { s.station st with assembly := a } := by simp
  unfold State.recordFault Station.outOfOrder
  rw [station]
  rfl

theorem exec_stationRingWrite {s t : State} {st : StationIx} {offset : Nat} {data : Word} {e : Enables}
    (released : s.resetLow = false) (inside : offset < 8 * s.stationSlots st)
    (run : stationSnoop st offset data e s = t) : exec (.stationRingWrite st offset data e) s = .next t :=
  exec_of_effect ((stationRingWrite_of_inside released inside data e).trans run)

/-- Settles O18: an ALIGN reject and a check's reject, each in HUNT and in LOCKED. -/
theorem rejectedRecordsCounted : Obligations.RejectedRecordsCounted := by
  refine ⟨fun _ _ => rfl, by decide, fun slot x => ⟨fun cause other => ?_, fun last same => ?_⟩,
    fun s st offset slot ws data e released inside on collecting other => ?_,
    fun s st slot ws data cause released inside on collecting full fault => ?_⟩
  · cases cause with
    | order => exact absurd rfl other
    | align | crc | badRecord | stray => rfl
  · simp only [rejectArg, same]
  · have run := (stationSnoop_of_on on offset data e).trans (assembleWord_of_other collecting other data)
    refine ⟨_, exec_stationRingWrite released inside run, ?_⟩
    rw [← startAssembly_eq]
    by_cases locked : (s.station st).framing = .locked
    · obtain ⟨stations, raised, frame⟩ := alignReject_locked locked (8 * slot + ws.length) offset data e
      rw [stationNotice_locked locked] at raised
      rw [if_pos locked, if_pos locked]
      exact ⟨stations, raised, frame⟩
    · rw [alignReject_hunt locked, if_neg locked, if_neg locked, ← hunt_of_on on locked]
      exact ⟨rfl, .refl rfl rfl rfl rfl, rfl⟩
  · have station : (s.setStation st { s.station st with
        assembly := .collecting ((slot + 1) % s.stationSlots st) [] }).station st =
        { s.station st with assembly := .collecting ((slot + 1) % s.stationSlots st) [] } := by simp
    have run : stationSnoop st (8 * slot + 7) data 0xF#4 s = rejectRecord st slot (ws ++ [data]) cause
        (s.setStation st { s.station st with
          assembly := .collecting ((slot + 1) % s.stationSlots st) [] }) := by
      rw [stationSnoop_of_complete on collecting full data, completeRecord, recordFault_setAssembly, fault]
    refine ⟨_, exec_stationRingWrite released inside run, ?_⟩
    by_cases locked : (s.station st).framing = .locked
    · have rejected := stationSet_of_set (rejectRecord_locked (s := s.setStation st { s.station st with
        assembly := .collecting ((slot + 1) % s.stationSlots st) [] }) (by rw [station]; exact locked)
        slot (ws ++ [data]) cause)
      rw [station] at rejected
      obtain ⟨stations, raised, frame⟩ := rejected
      rw [stationNotice_locked (x := { s.station st with
        assembly := .collecting ((slot + 1) % s.stationSlots st) [] }) locked] at raised
      have framing : (if (s.station st).framing = .locked ∧ (s.station st).faultRun < 2 then
          Framing.locked else .hunt) = if (s.station st).faultRun < 2 then .locked else .hunt := by
        simp [locked]
      rw [framing, if_pos locked, if_pos locked]
      exact ⟨stations, raised, frame⟩
    · obtain ⟨stations, raised, frame⟩ := stationSet_of_set (stationSet_setStation st
        (countedReject { s.station st with assembly := .collecting ((slot + 1) % s.stationSlots st) [] })
        (s.setStation st { s.station st with
          assembly := .collecting ((slot + 1) % s.stationSlots st) [] }))
      rw [rejectRecord_hunt (by rw [station]; exact locked), station,
        if_neg fun h => locked h.1, if_neg locked, if_neg locked, ← hunt_of_on on locked]
      exact ⟨stations, raised, frame⟩

/-! ### The checks (R76 to R78) -/

theorem letterByTag_isNone_iff (s : State) (t : Tag) :
    (s.letterByTag t).isNone = true ↔ ∀ l ∈ s.transit.letters, l.tag ≠ t := by
  rw [Option.isNone_iff_eq_none, State.letterByTag, List.find?_eq_none]
  simp

/-- Settles O19: the four checks in their order. -/
theorem recordChecksInOrder : Obligations.RecordChecksInOrder := by
  refine ⟨fun _ _ => rfl, fun ws => by simp [recordCrcGood], recordMalformed_iff, fun s st ws => ?_⟩
  have tag : (recordWord ws 0).extractLsb' 0 16 = recordTag ws := rfl
  have order := outOfOrder_iff (s.station st) (recordTag ws)
  have stray := letterByTag_isNone_iff s (recordTag ws)
  have known : (∃ l ∈ s.transit.letters, l.tag = recordTag ws) ↔
      ¬(s.letterByTag (recordTag ws)).isNone = true := by rw [stray]; simp
  rw [tag, known, ← stray, ← order, State.recordFault]
  cases recordCrcGood ws with
  | false => simp
  | true =>
    cases recordMalformed st ws with
    | true => simp
    | false =>
      cases (s.letterByTag (recordTag ws)).isNone with
      | true => simp
      | false => cases (s.station st).outOfOrder (recordTag ws) <;> simp

/-! ### Reads (R82, R84) -/

theorem recordRead_of_noread {ws : List Word} (kind : recordKind ws = 3) (st : StationIx) (g : Nat) :
    recordRead st g ws = none := by
  simp [recordRead, recordBody, kind]

/-- Settles O21: the read set by its length, the record by its fields. -/
theorem readsJoinReadSet : Obligations.ReadsJoinReadSet := by
  refine ⟨fun ws => ⟨rfl, rfl, rfl, rfl⟩, fun st g ws r read => ?_, recordRead_body_iff,
    fun r l undecided => ?_, fun r l d decided => ?_, fun st g ws kind => recordRead_of_noread kind st g⟩
  · obtain ⟨body, -, rfl⟩ := Option.map_eq_some_iff.1 read
    exact ⟨rfl, rfl⟩
  · have joins : l.takeRead r = l.joinRead r := by
      rcases undecided with state | state <;> simp [Letter.takeRead, state]
    refine ⟨fun short => ?_, fun a b c d full => ?_⟩
    · rw [joins, Letter.joinRead]
      exact if_pos short
    · rw [joins, Letter.joinRead, full]
      rfl
  · rw [Letter.takeRead, decided]
    rfl

end Sys2Proof.Proofs
end

section
/-! PROOFS. A good record and the letter of its tag (O20). -/

namespace Sys2Proof.Proofs

open Sys2Proof Sys2Proof.Machine Sys2Proof.Laws

/-! ### The letter of a tag (R66) -/

theorem modifyFirst_split {α : Type} {p : α → Bool} {before after : List α} {x : α}
    (apart : ∀ y ∈ before, p y = false) (found : p x = true) (f : α → α) :
    modifyFirst p f (before ++ x :: after) = before ++ f x :: after := by
  induction before with
  | nil => simp [modifyFirst, found]
  | cons y before ih =>
    simp only [List.mem_cons, forall_eq_or_imp] at apart
    simp [modifyFirst, apart.1, ih apart.2]

/-- No two letters share a tag, since no two share a slot. -/
theorem tag_ne_of_slotsDistinct {s : State} {before after : List Letter} {l : Letter}
    (distinct : s.SlotsDistinct) (letters : s.transit.letters = before ++ l :: after) :
    (∀ x ∈ before, x.tag ≠ l.tag) ∧ ∀ x ∈ after, x.tag ≠ l.tag := by
  have nodup : ((before ++ l :: after).map fun x => slotOf x.tag).Nodup := by
    rw [State.SlotsDistinct, State.tags, letters, List.map_map] at distinct
    exact distinct
  rw [List.map_append, List.map_cons, List.nodup_middle, List.nodup_cons] at nodup
  have fresh := nodup.1
  refine ⟨fun x hx same => fresh ?_, fun x hx same => fresh ?_⟩
  all_goals
    rw [← same]
    simp only [List.mem_append, List.mem_map]
  · exact .inl ⟨x, hx, rfl⟩
  · exact .inr ⟨x, hx, rfl⟩

theorem changeLetter_of_split {s : State} {before after : List Letter} {l : Letter}
    (letters : s.transit.letters = before ++ l :: after) (apart : ∀ x ∈ before, x.tag ≠ l.tag)
    (f : Letter → Letter) : s.changeLetter l.tag f = s.setLetters (before ++ f l :: after) := by
  rw [State.changeLetter, letters, modifyFirst_split (by simpa using apart) (by simp)]

/-- The test of the letter of a tag (R85). -/
theorem testLetter_of_split {s : State} {before after : List Letter} {l : Letter}
    (letters : s.transit.letters = before ++ l :: after)
    (apart : (∀ x ∈ before, x.tag ≠ l.tag) ∧ ∀ x ∈ after, x.tag ≠ l.tag) :
    testLetter l.tag s = if s.readyNow l = true then { s with
      pockets := (resolveLetter s.plan s.pockets l).1
      transit := { s.transit with
        letters := before ++ (resolveLetter s.plan s.pockets l).2 :: after } } else s := by
  have passed (x : Letter) (other : x.tag ≠ l.tag) : (x.tag == l.tag && s.readyNow x) = false := by
    simp [other]
  by_cases ready : s.readyNow l = true
  · have first := resolveFirst_split s.plan (fun x => x.tag == l.tag && s.readyNow x) s.pockets before
      after l (fun x hx => passed x (apart.1 x hx)) (by simp [ready])
    rw [if_pos ready]
    simp only [testLetter, State.resolveOne, letters, first]
  · have none := resolveFirst_none s.plan (fun x => x.tag == l.tag && s.readyNow x) s.pockets
      (before ++ l :: after) (fun x hx => by
        simp only [List.mem_append, List.mem_cons] at hx
        rcases hx with older | rfl | younger
        · exact passed x (apart.1 x older)
        · simp [ready]
        · exact passed x (apart.2 x younger))
    rw [if_neg ready]
    simp only [testLetter, State.resolveOne, letters, none]
    rw [← letters]

/-! ### A record that is taken (R82, R84, R85) -/

/-- The letter as a record of station `st` reaches it with the read that the record builds (R82, R84). -/
def delivered (st : StationIx) (minGrade : Nat) (ws : List Word) (l : Letter) : Letter :=
  match recordRead st minGrade ws with
  | some r => l.takeRead r
  | none => l

theorem delivered_tag_state (st : StationIx) (minGrade : Nat) (ws : List Word) (l : Letter) :
    (delivered st minGrade ws l).tag = l.tag ∧ (delivered st minGrade ws l).state = l.state := by
  unfold delivered
  split
  · unfold Letter.takeRead Letter.joinRead
    repeat' split
    all_goals exact ⟨rfl, rfl⟩
  · exact ⟨rfl, rfl⟩

theorem deliverRead_of_split {s : State} {before after : List Letter} {l : Letter} {ws : List Word}
    (letters : s.transit.letters = before ++ l :: after) (apart : ∀ x ∈ before, x.tag ≠ l.tag)
    (tag : l.tag = recordTag ws) (st : StationIx) : deliverRead st ws s =
      s.setLetters (before ++ delivered st s.plan.minGrade ws l :: after) := by
  unfold deliverRead delivered
  cases recordRead st s.plan.minGrade ws with
  | some r => exact tag ▸ changeLetter_of_split letters apart _
  | none => simp only [State.setLetters, ← letters]

/-- What follows the framing of a good record touches the letters, the pockets and the stations only. -/
theorem raised_frame_of_letters {st : StationIx} {x : Station} {ns : List Notice} {s u : State}
    (set : StationSet st x ns s u) (letters : List Letter) (pockets : Pockets)
    (stations : Vector Station 4) (t : State) (changed : t = { u with
      transit := { u.transit with letters := letters }, pockets := pockets, stations := stations }) :
    s.Raised t ns ∧ { t with
      transit := { t.transit with letters := s.transit.letters }, stations := s.stations
      pockets := s.pockets, notice := s.notice, noticeReq := s.noticeReq } = s := by
  obtain ⟨_, raised, frame⟩ := set
  subst changed
  have quiet : u.Raised { u with
      transit := { u.transit with letters := letters }, pockets := pockets, stations := stations } [] :=
    .refl rfl rfl rfl rfl
  exact ⟨by simpa using raised.trans quiet, congrArg (fun v : State => { v with
    transit := { v.transit with letters := s.transit.letters }, pockets := s.pockets }) frame⟩

theorem stationSet_frameGood {st : StationIx} {x : Station} {s u : State} (on : x.framing ≠ .off)
    (set : StationSet st x [] s u) (tag : Tag) :
    StationSet st { x with framing := .locked, faultRun := 0 }
      (if x.framing = .hunt then [stationNotice st .locked x .lock (tag.setWidth 32)] else []) s
      (frameGood st tag u) := by
  have station := stationSet_station set
  unfold frameGood
  rw [station]
  obtain ⟨framing, _, _, _, _, _, _⟩ := x
  cases framing with
  | off => exact absurd rfl on
  | hunt => exact stationSet_change set _ .lock _
  | locked => exact stationSet_again set _

/-- A good record that completes is framed and taken. -/
theorem completeRecord_of_good {s : State} {st : StationIx} {ws : List Word} {slot : Nat}
    (good : s.recordFault st ws = none) (a : RecordAssembly) :
    completeRecord st slot ws (s.setStation st { s.station st with assembly := a }) =
      takeRecord st ws (frameGood st (recordTag ws)
        (s.setStation st { s.station st with assembly := a })) := by
  rw [completeRecord, recordFault_setAssembly, good]

/-- A record without the LAST flag. -/
theorem takeRecord_of_more {s : State} {st : StationIx} {ws : List Word} {before after : List Letter}
    {l : Letter} (letters : s.transit.letters = before ++ l :: after)
    (apart : ∀ x ∈ before, x.tag ≠ l.tag) (tag : l.tag = recordTag ws)
    (more : recordLast ws = false) : takeRecord st ws s =
      (s.setStation st { s.station st with lastTag := some l.tag }).setLetters
        (before ++ delivered st s.plan.minGrade ws l :: after) := by
  rw [takeRecord, more, tag]
  exact deliverRead_of_split (s := s.setStation st _) letters apart tag st

/-- A record with the LAST flag tests the letter as the station's context then stands. -/
theorem takeRecord_of_last {s : State} {st : StationIx} {ws : List Word} {before after : List Letter}
    {l : Letter} (letters : s.transit.letters = before ++ l :: after)
    (apart : ∀ x ∈ before, x.tag ≠ l.tag) (tag : l.tag = recordTag ws)
    (last : recordLast ws = true) : takeRecord st ws s = testLetter l.tag
      ((s.setLetters (before ++ (delivered st s.plan.minGrade ws l).report st :: after)).setStation st
        { s.station st with lastTag := some l.tag, misses := 0 }) := by
  have taken : takeRecord st ws s = reportLast st (recordTag ws) (deliverRead st ws
      (s.setStation st { s.station st with lastTag := some (recordTag ws) })) := by
    rw [takeRecord, last]
    rfl
  obtain ⟨kept, _⟩ := delivered_tag_state st s.plan.minGrade ws l
  rw [taken, ← tag, deliverRead_of_split (s := s.setStation st _) letters apart tag, reportLast]
  congr 1
  have reported := changeLetter_of_split (s := (s.setStation st { s.station st with
    lastTag := some l.tag }).setLetters (before ++ delivered st s.plan.minGrade ws l :: after)) rfl
    (kept.symm ▸ apart) (Letter.report st)
  rw [kept] at reported
  refine (congrArg (fun v => State.setStation v st _) reported).trans ?_
  simp [State.setLetters, State.setStation, State.station]

/-- The context of a station whose record of slot `slot` is complete (R74). -/
def beganAnew (s : State) (st : StationIx) (slot : Nat) : Station :=
  { s.station st with assembly := .collecting ((slot + 1) % s.stationSlots st) [] }

/-- A good record is framed before it is taken (R79, R80). -/
theorem stationSnoop_of_good {s : State} {st : StationIx} {slot : Nat} {ws : List Word} {data : Word}
    {l : Letter} (on : (s.station st).framing ≠ .off)
    (collecting : (s.station st).assembly = .collecting slot ws) (full : ws.length = 7)
    (good : s.recordFault st (ws ++ [data]) = none) (tag : l.tag = recordTag (ws ++ [data])) :
    ∃ u, stationSnoop st (8 * slot + 7) data 0xF#4 s = takeRecord st (ws ++ [data]) u ∧
      StationSet st { beganAnew s st slot with framing := .locked, faultRun := 0 }
        (if (s.station st).framing = .hunt then
          [⟨.stationState, BitVec.ofNat 8 st.val, 2#4, 1#4,
            BitVec.ofNat 16 (1 + 16 * (s.station st).expectation.code), l.tag.setWidth 32, 0#24⟩]
        else []) s u := by
  refine ⟨_, (stationSnoop_of_complete on collecting full data).trans (completeRecord_of_good good _), ?_⟩
  have framed := stationSet_frameGood (x := beganAnew s st slot) on (stationSet_setStation st _ s)
    (recordTag (ws ++ [data]))
  by_cases hunt : (s.station st).framing = .hunt
  · rw [if_pos hunt, tag]
    rw [if_pos (show (beganAnew s st slot).framing = .hunt from hunt), stationNotice,
      show (beganAnew s st slot).framing = .hunt from hunt] at framed
    exact framed
  · rw [if_neg hunt]
    rw [if_neg (show ¬(beganAnew s st slot).framing = .hunt from hunt)] at framed
    exact framed

theorem stationSet_kept {st : StationIx} {x : Station} {ns : List Notice} {s t : State}
    (h : StationSet st x ns s t) :
    t.transit = s.transit ∧ t.pockets = s.pockets ∧ t.plan = s.plan :=
  ⟨(congrArg State.transit h.frame :), (congrArg State.pockets h.frame :),
    (congrArg State.plan h.frame :)⟩

/-- Settles O20: the framing of the record, and the record taken with and without the LAST flag. -/
theorem goodRecordReachesLetter : Obligations.GoodRecordReachesLetter := by
  refine ⟨fun _ _ => rfl, fun s st slot ws data before after l released inside on collecting full good
    letters tag distinct => ?_⟩
  have apart := tag_ne_of_slotsDistinct distinct letters
  obtain ⟨u, run, framed⟩ := stationSnoop_of_good on collecting full good tag
  have station := stationSet_station framed
  obtain ⟨transit, pockets, plan⟩ := stationSet_kept framed
  have listed : u.transit.letters = before ++ l :: after := by rw [transit, letters]
  obtain ⟨kept, state⟩ := delivered_tag_state st s.plan.minGrade (ws ++ [data]) l
  cases last : recordLast (ws ++ [data]) with
  | false =>
    have taken := run.trans (takeRecord_of_more listed apart.1 tag last)
    have set := stationSet_again framed { u.station st with lastTag := some l.tag }
    obtain ⟨raised, frame⟩ := raised_frame_of_letters framed
      (before ++ delivered st u.plan.minGrade (ws ++ [data]) l :: after) u.pockets
      (u.setStation st { u.station st with lastTag := some l.tag }).stations _ rfl
    refine ⟨_, _, exec_stationRingWrite released inside taken, ?_, rfl, fun _ => ⟨?_, pockets⟩,
      nofun, nofun, raised, frame⟩
    · rw [station] at set ⊢
      exact set.stations
    · rw [plan]
      rfl
  | true =>
    have taken := run.trans (takeRecord_of_last listed apart.1 tag last)
    have set := stationSet_again framed { u.station st with lastTag := some l.tag, misses := 0 }
    have reportTag : ((delivered st s.plan.minGrade (ws ++ [data]) l).report st).tag = l.tag := kept
    have reportState : ((delivered st s.plan.minGrade (ws ++ [data]) l).report st).state = l.state :=
      state
    rw [plan] at taken
    refine ⟨_, delivered st s.plan.minGrade (ws ++ [data]) l,
      exec_stationRingWrite released inside taken, ?_⟩
    generalize hl : (delivered st s.plan.minGrade (ws ++ [data]) l).report st = lr at *
    generalize hv : (u.setLetters (before ++ lr :: after)).setStation st
      { u.station st with lastTag := some l.tag, misses := 0 } = v
    have tested := testLetter_of_split (s := v) (before := before) (after := after) (l := lr)
      (by rw [← hv]; rfl) (reportTag ▸ apart)
    have readyNow : v.readyNow lr = true ↔ l.state = .collecting ∧ earlyReady v.stations lr = true := by
      rw [readyNow_eq, Bool.and_eq_true, decide_eq_true_eq, reportState]
    rw [reportTag] at tested
    subst hv
    rw [tested]
    by_cases now : l.state = .collecting ∧ earlyReady (u.setStation st
        { u.station st with lastTag := some l.tag, misses := 0 }).stations lr = true
    · obtain ⟨raised, frame⟩ := raised_frame_of_letters framed
        (before ++ (resolveLetter u.plan u.pockets lr).2 :: after) (resolveLetter u.plan u.pockets lr).1
        (u.setStation st { u.station st with lastTag := some l.tag, misses := 0 }).stations _ rfl
      rw [if_pos (readyNow.2 now)]
      refine ⟨?_, rfl, nofun, fun _ other => absurd now other, fun _ _ _ => ⟨?_, ?_⟩, raised, frame⟩
      · rw [station] at set ⊢
        exact set.stations
      · rw [← plan, ← pockets]
        rfl
      · rw [← plan, ← pockets]
        rfl
    · obtain ⟨raised, frame⟩ := raised_frame_of_letters framed (before ++ lr :: after) u.pockets
        (u.setStation st { u.station st with lastTag := some l.tag, misses := 0 }).stations _ rfl
      rw [if_neg fun ready => now (readyNow.1 ready)]
      refine ⟨?_, rfl, nofun, fun _ _ => ⟨rfl, pockets⟩, fun _ collecting ready =>
        absurd ⟨collecting, ready⟩ now, raised, frame⟩
      rw [station] at set ⊢
      exact set.stations

end Sys2Proof.Proofs
end

section
/-! PROOFS. The station commands (O23). -/

namespace Sys2Proof.Proofs

open Sys2Proof Sys2Proof.Machine Sys2Proof.Laws

theorem stationSet_refl (st : StationIx) (s : State) : StationSet st (s.station st) [] s s :=
  ⟨by simp [State.station], .refl rfl rfl rfl rfl, rfl⟩

theorem stationAbsent_iff (s : State) (st : StationIx) : s.stationAbsent st = true ↔
    ∀ l, s.plan.layout = some l → l.stationPresent st = false := by
  unfold State.stationAbsent
  cases s.plan.layout <;> simp

theorem stationCommandOn_of_ready {s : State} {st : StationIx} (ready : s.Ready)
    (present : s.stationAbsent st = false) (c : Command) (own : State → State) :
    stationCommandOn c st own s = own s := by
  rw [stationCommandOn, whenIdle_of_ready ready, if_neg (by simp [present])]

/-- A station command that set the context of its station, resolved letters, and is acknowledged. -/
theorem ackStation_of_set {st : StationIx} {x : Station} {ns : List Notice} {s u : State}
    (set : StationSet st x ns s u) (letters : List Letter) (pockets : Pockets) (c : Command) (v : State)
    (changed : v = { u with
      transit := { u.transit with letters := letters }, pockets := pockets }) :
    (ackStation c st v).stations = s.stations.set st.val x st.isLt ∧
      s.TakenTo (ackStation c st v) c (BitVec.ofNat 32 st.val) ∧
      s.Raised (ackStation c st v) (ns ++ [ackNotice (ackStation c st v).cmd.last]) ∧
      { ackStation c st v with
        transit := { (ackStation c st v).transit with letters := s.transit.letters }
        stations := s.stations, pockets := s.pockets, sweep := s.sweep, cmd := s.cmd
        notice := s.notice, noticeReq := s.noticeReq } = s := by
  have units : v.cmd = s.cmd ∧ v.sweep = s.sweep := by
    rw [changed]
    exact ⟨(congrArg State.cmd set.frame :), (congrArg State.sweep set.frame :)⟩
  obtain ⟨raised, frame⟩ := raised_frame_of_letters set letters pockets u.stations v changed
  have stations : v.stations = u.stations := by rw [changed]
  refine ⟨by simp [stations, set.stations],
    takenTo_ackTaken c _ units.1 units.2, raised.trans (ackTaken_raised c _ v), ?_⟩
  refine Eq.trans ?_ frame
  apply State.eq_of_fields <;> simp [units]

theorem resolveReady_eq (s : State) : resolveReady s = { s with
    transit := { s.transit with letters := (resolveList s.plan
      (fun l => l.collecting && earlyReady s.stations l) s.pockets s.transit.letters).2 }
    pockets := (resolveList s.plan
      (fun l => l.collecting && earlyReady s.stations l) s.pockets s.transit.letters).1 } := rfl

/-- A station command that changed its station from HUNT or to HUNT, and tests the letters. -/
theorem ackStation_tested {st : StationIx} {x : Station} {ns : List Notice} {s u : State}
    (set : StationSet st x ns s u) (c : Command) :
    ((ackStation c st (resolveReady u)).pockets, (ackStation c st (resolveReady u)).transit.letters) =
      resolveList s.plan
        (fun l => l.collecting && earlyReady (ackStation c st (resolveReady u)).stations l)
        s.pockets s.transit.letters := by
  obtain ⟨transit, pockets, plan⟩ := stationSet_kept set
  have stations : (ackStation c st (resolveReady u)).stations = u.stations := by simp
  rw [stations, ← transit, ← pockets, ← plan]
  simp [resolveReady_eq]

/-- Settles O23: the change of the context, the test of the letters, and the acknowledgment. -/
theorem stationCommandsTaken : Obligations.StationCommandsTaken := by
  refine ⟨stationAbsent_iff, fun s st ready present => ⟨fun on => ?_, fun off => ?_, ?_⟩⟩
  · have run : runCommand (.stationDisable st) s =
        ackStation (.stationDisable st) st (disableStation st s) := by
      rw [runCommand, commandStationDisable, stationCommandOn_of_ready ready present]
      cases framing : (s.station st).framing with
      | off => exact absurd framing on
      | hunt | locked => rfl
    have set := stationSet_change (stationSet_refl st s) (s.station st).disabled .disable 0#32
    generalize hu : changeStation st (s.station st).disabled .disable 0#32 s = u at set
    cases expected : (s.station st).expectation with
    | expected =>
      have tested : disableStation st s = resolveReady u := by
        rw [disableStation, expected, hu]
        rfl
      rw [tested] at run
      obtain ⟨stations, taken, raised, frame⟩ :=
        ackStation_of_set set _ _ (.stationDisable st) _ (resolveReady_eq u)
      exact ⟨_, ready_exec run, stations, fun _ => ackStation_tested set _, nofun, taken,
        expected ▸ raised, frame⟩
    | degraded =>
      have passed : disableStation st s = u := by
        rw [disableStation, expected, hu]
        rfl
      rw [passed] at run
      obtain ⟨transit, pockets, -⟩ := stationSet_kept set
      obtain ⟨stations, taken, raised, frame⟩ :=
        ackStation_of_set set u.transit.letters u.pockets (.stationDisable st) u rfl
      exact ⟨_, ready_exec run, stations, nofun, fun _ => ⟨by simp [pockets], by simp [transit]⟩, taken,
        expected ▸ raised, frame⟩
  · have run : runCommand (.stationDisable st) s = ackStation (.stationDisable st) st s := by
      rw [runCommand, commandStationDisable, stationCommandOn_of_ready ready present, off]
    refine ⟨_, ready_exec run, takenTo_ackTaken _ _, ackTaken_raised _ _ _, ?_⟩
    apply State.eq_of_fields <;> simp
  · intro c cause which
    have run : ∃ why : StationCause, runCommand c s = ackStation c st (huntStation st why s) ∧
        why.code = cause := by
      rcases which with ⟨rfl, rfl, off⟩ | ⟨rfl, rfl, on⟩
      · refine ⟨.enable, ?_, rfl⟩
        rw [runCommand, commandStationEnable, stationCommandOn_of_ready ready present, off]
      · refine ⟨.restart, ?_, rfl⟩
        rw [runCommand, commandStationRestart, stationCommandOn_of_ready ready present]
        cases framing : (s.station st).framing with
        | off => exact absurd framing on
        | hunt | locked => rfl
    obtain ⟨why, run, rfl⟩ := run
    have set := stationSet_change (stationSet_refl st s) (s.station st).hunting why 0#32
    obtain ⟨stations, taken, raised, frame⟩ := ackStation_of_set set _ _ c _ (resolveReady_eq _)
    exact ⟨_, ready_exec run, stations, ackStation_tested set c, taken, raised, frame⟩

end Sys2Proof.Proofs
end

section
/-! PROOFS. The chain engine's commands (O35, O36, O37). -/

namespace Sys2Proof.Proofs

open Sys2Proof Sys2Proof.Machine Sys2Proof.Laws

/-! ### The engine's states and faults (R145, R147) -/

theorem setChainState_chain (st : ChainState) (cause : ChainCause) (s : State) :
    (setChainState st cause s).chain = { s.chain with state := st, work := .none } := by
  simp [setChainState]

/-- The CHAIN_STATE notice of a change to `st` (R145). -/
def chainNotice (st : ChainState) (cause : ChainCause) (s : State) : Notice :=
  ⟨.chainState, 0#8, BitVec.ofNat 4 st.code, cause.code, BitVec.ofNat 16 s.chain.state.code,
    s.chain.descAddr, 0#24⟩

theorem setChainState_raised (st : ChainState) (cause : ChainCause) (s : State) :
    s.Raised (setChainState st cause s) [chainNotice st cause s] :=
  (State.Raised.refl (s := s)
    (t := { s with chain := { s.chain with state := st, work := .none } }) rfl rfl rfl rfl).raise _

theorem chainFault_faultedTo (f : ChainFault) (s : State) :
    s.chain.FaultedTo (chainFault f s).chain f := by
  rw [chainFault, setChainState_chain]
  refine ⟨rfl, fun clear => ?_⟩
  simp [clear]

/-- A fault overwrites the state and pending flush. -/
theorem faultedTo_of_fetch {c d : Chain} {f : ChainFault} {st : ChainState} {work : ChainWork}
    (h : Chain.FaultedTo { c with state := st, work := work, pendingFlush := false } d f) :
    c.FaultedTo d f := h

theorem chainFault_raised (f : ChainFault) (s : State) :
    s.Raised (chainFault f s) [chainNotice .fault f.cause s] :=
  (setChainState_raised .fault f.cause { s with chain := { s.chain with
    fault := f, pendingFlush := false
    stopAfter := s.chain.stopAfter && Config.stopSurvivesFault } }).congr_left rfl rfl rfl rfl

/-! ### The work that begins (R145, R147) -/

theorem beginWork_raised (w : ChainWork) (s : State) : s.Raised (beginWork w s) [] :=
  .refl (by simp) (by simp) (by simp) (by simp)

theorem beginWork_descriptor_chainReq (k : Fin 3) (s : State) :
    (beginWork (.descriptor k) s).chainReq =
      s.chainPresents .chainDesc ⟨s.chain.descAddr + BitVec.ofNat 32 (4 * k.val), .read⟩ := rfl

theorem beginWork_firstWord_chainReq (s : State) :
    (beginWork (.descriptor 0) s).chainReq = s.chainPresents .chainDesc ⟨s.chain.descAddr, .read⟩ := by
  rw [beginWork_descriptor_chainReq]
  simp

theorem beginWork_rereadControl_chainReq (s : State) :
    (beginWork .rereadControl s).chainReq =
      s.chainPresents .chainReread ⟨s.chain.descAddr, .read⟩ := by
  have presented : (beginWork .rereadControl s).chainReq =
      s.chainPresents .chainReread ⟨s.chain.descAddr + 0#32, .read⟩ := rfl
  rw [presented, BitVec.add_zero]

/-- The chain registers at the start of a fetch (R147). -/
def fetching (addr : Word) (c : Chain) : Chain :=
  { c with state := .fetch, descAddr := addr, count := 0, pendingFlush := false }

theorem fetchBegin_of_aligned {addr : Word} (aligned : addr.toNat % 16 = 0) (s : State) :
    fetchBegin addr s = beginWork (.descriptor 0) { s with chain := fetching addr s.chain } :=
  if_pos aligned

theorem fetchBegin_of_misaligned {addr : Word} (misaligned : addr.toNat % 16 ≠ 0) (s : State) :
    fetchBegin addr s = chainFault .align { s with chain := fetching addr s.chain } :=
  if_neg misaligned

theorem fetchBegin_aligned {addr : Word} (aligned : addr.toNat % 16 = 0) (s : State) :
    (fetchBegin addr s).chain = { fetching addr s.chain with work := .descriptor 0 } ∧
      (fetchBegin addr s).chainReq = s.chainPresents .chainDesc ⟨addr, .read⟩ ∧
      s.Raised (fetchBegin addr s) [] := by
  rw [fetchBegin_of_aligned aligned]
  exact ⟨beginWork_chain _ _, beginWork_firstWord_chainReq _,
    (beginWork_raised _ _).congr_left rfl rfl rfl rfl⟩

theorem fetchBegin_misaligned {addr : Word} (misaligned : addr.toNat % 16 ≠ 0) (s : State) :
    Chain.FaultedTo { s.chain with descAddr := addr, count := 0 } (fetchBegin addr s).chain .align ∧
      (fetchBegin addr s).chainReq = s.chainReq ∧
      s.Raised (fetchBegin addr s) [⟨.chainState, 0#8, 4#4, 4#4, 1#16, addr, 0#24⟩] := by
  rw [fetchBegin_of_misaligned misaligned]
  exact ⟨chainFault_faultedTo .align { s with chain := fetching addr s.chain }, by simp,
    (chainFault_raised .align _).congr_left rfl rfl rfl rfl⟩

theorem ackTaken_chain (c : Command) (arg : Word) (s : State) : (ackTaken c arg s).chain = s.chain := by
  simp

theorem ackTaken_chainReq (c : Command) (arg : Word) (s : State) :
    (ackTaken c arg s).chainReq = s.chainReq := by simp

theorem ackTaken_raised_after {s t : State} {ns : List Notice} (h : s.Raised t ns) (c : Command)
    (arg : Word) : s.Raised (ackTaken c arg t) (ns ++ [ackNotice (ackTaken c arg t).cmd.last]) :=
  h.trans (ackTaken_raised c arg t)

/-! ### CHAIN_START and CHAIN_RESUME (R152, R155) -/

theorem commandChainStart_of_ready {s : State} (ready : s.Ready)
    (stopped : s.chain.state = .off ∨ s.chain.state = .fault) : commandChainStart s = chainStarted s := by
  rw [commandChainStart, whenIdle_of_ready ready]
  rcases stopped with state | state <;> rw [state]

theorem commandChainResume_of_ready {s : State} (ready : s.Ready) (held : s.chain.state = .held)
    (mode : s.chain.mode = .hold) :
    commandChainResume s = ackTaken .chainResume 0#32 (resumeHeld s) := by
  rw [commandChainResume, whenIdle_of_ready ready]
  exact if_pos ⟨held, mode⟩

/-- The start latches the mode and clears the fault before the fetch begins (R146, R152). -/
def startLatched (s : State) : State :=
  { s with chain := { s.chain with mode := s.startMode, fault := .none } }

theorem chainStarted_eq (s : State) : chainStarted s =
    ackTaken .chainStart s.startMode.ackArg (fetchBegin s.chain.base (startLatched s)) := rfl

theorem chainStarted_units {s : State} :
    (chainStarted s).chain = (fetchBegin s.chain.base (startLatched s)).chain ∧
      (chainStarted s).chainReq = (fetchBegin s.chain.base (startLatched s)).chainReq := by
  simp [chainStarted_eq]

theorem startMode_ackArg (s : State) :
    s.startMode.ackArg = if s.chain.lastWritten then 1#32 else 0#32 := by
  unfold State.startMode
  cases s.chain.lastWritten <;> rfl

/-- Settles O35: the start by the alignment of the base pointer, and the resumption. -/
theorem chainStartsAndResumes : Obligations.ChainStartsAndResumes := by
  refine ⟨atMemory_chain_iff, fun s ready => ⟨fun stopped => ?_, fun held mode => ?_⟩⟩
  · refine ⟨chainStarted s, ready_exec (c := .chainStart) (commandChainStart_of_ready ready stopped), ?_⟩
    have taken := takenTo_ackTaken (s := s) (t := fetchBegin s.chain.base (startLatched s)) .chainStart
      s.startMode.ackArg (by simp [startLatched]) (by simp [startLatched])
    have frame : { chainStarted s with
        chain := s.chain, chainReq := s.chainReq, sweep := s.sweep, cmd := s.cmd
        notice := s.notice, noticeReq := s.noticeReq } = s := by
      apply State.eq_of_fields <;> simp
    have mode : s.startMode = if s.chain.lastWritten then .lastAddress else .hold := rfl
    rw [← startMode_ackArg, ← mode]
    by_cases aligned : s.chain.base.toNat % 16 = 0
    · obtain ⟨chain, chainReq, raised⟩ := fetchBegin_aligned aligned (startLatched s)
      rw [← chainStarted_units.1] at chain
      rw [← chainStarted_units.2] at chainReq
      have notices := ackTaken_raised_after (raised.congr_left (s' := s) rfl rfl rfl rfl) .chainStart
        s.startMode.ackArg
      rw [chain]
      exact ⟨rfl, rfl, rfl, rfl, fun _ => ⟨rfl, chainReq, notices⟩,
        fun other => absurd aligned other, taken, frame⟩
    · obtain ⟨faulted, chainReq, raised⟩ := fetchBegin_misaligned aligned (startLatched s)
      rw [← chainStarted_units.1] at faulted
      rw [← chainStarted_units.2] at chainReq
      have notices := ackTaken_raised_after (raised.congr_left (s' := s) rfl rfl rfl rfl) .chainStart
        s.startMode.ackArg
      obtain ⟨chain, kept⟩ := faulted
      have latched := congrArg Chain.mode chain
      refine ⟨latched, (congrArg Chain.descAddr chain :), (congrArg Chain.count chain :),
        (congrArg Chain.pendingFlush chain :), fun other => absurd other aligned,
        fun _ => ⟨⟨?_, kept⟩, chainReq, notices⟩, taken, frame⟩
      rw [latched]
      exact chain
  · refine ⟨_, ready_exec (c := .chainResume) (commandChainResume_of_ready ready held mode), ?_, ?_,
      takenTo_ackTaken _ _ (by simp [resumeHeld]) (by simp [resumeHeld]), ?_, ?_⟩
    · simp [resumeHeld]
    · rw [ackTaken_chainReq]
      exact beginWork_rereadControl_chainReq _
    · have begun : s.Raised (resumeHeld s) [] :=
        (beginWork_raised .rereadControl _).congr_left rfl rfl rfl rfl
      exact ackTaken_raised_after begun _ _
    · apply State.eq_of_fields <;> simp [resumeHeld]

/-! ### CHAIN_STOP (R154) -/

theorem abandonedBy_chain (g : Granted) : g.abandonedBy .chain =
    if g.job ∈ [Job.chainDesc, .chainReread, .chainRecord, .chainCompletion] then
      { g with abandoned := true } else g := by
  unfold Granted.abandonedBy
  cases job : g.job <;> simp [Job.requester]

theorem atMemory_withdrawChain (s : State) : s.withdrawChain.atMemory .chain = s.atMemory .chain :=
  atMemory_abandonedBy s.withdrawChain .chain .chain s.port rfl

theorem chainTurnOff_units (s : State) :
    (chainTurnOff s).chain = { s.chain with state := .off, work := .none, fault := .none } ∧
      (chainTurnOff s).chainReq = ⟨none, 0⟩ ∧
      (chainTurnOff s).port = s.port.map (Granted.abandonedBy .chain) ∧
      s.Raised (chainTurnOff s) [chainNotice .off .stop s] := by
  refine ⟨by simp [chainTurnOff, setChainState_chain], by simp [chainTurnOff, OwnReq.reset],
    by simp [chainTurnOff], ?_⟩
  exact (setChainState_raised .off .stop
    { s.withdrawChain with chain := { s.chain with fault := .none } }).congr_left rfl rfl rfl rfl

theorem stopFilling_units (s : State) :
    (stopFilling s).chain = { s.chain with work := .completion .stop, pendingFlush := false } ∧
      (stopFilling s).chainReq = (if s.atMemory .chain then ⟨none, 0⟩
        else ⟨some ⟨.chainCompletion, ⟨s.chain.descAddr + 12#32,
          .write (completionWord false .stop s.chain.count) 0xF#4⟩⟩, 0⟩) ∧
      (stopFilling s).port = s.port.map (Granted.abandonedBy .chain) ∧
      s.Raised (stopFilling s) [] := by
  refine ⟨by simp [stopFilling, endDescriptor_chain], ?_, by simp [stopFilling],
    .refl (by simp [stopFilling]) (by simp [stopFilling]) (by simp [stopFilling]) (by simp [stopFilling])⟩
  rw [stopFilling, endDescriptor_chainReq, State.chainPresents, atMemory_withdrawChain]
  rfl

/-- What CHAIN_STOP does before its acknowledgment, and the argument that it acknowledges (R154). -/
def chainStopped (s : State) : State × Word :=
  match s.chain.state with
  | .filling =>
    match s.chain.work with
    | .completion _ => ({ s with chain := { s.chain with stopAfter := true } }, 0#32)
    | .none | .descriptor _ | .refusal _ | .rereadControl | .rereadNext _ | .record _ =>
      (stopFilling s, BitVec.ofNat 32 s.chain.count)
  | .fetch | .held | .fault => (chainTurnOff s, 0#32)
  | .off => (s, 0#32)

theorem commandChainStop_of_ready {s : State} (ready : s.Ready) :
    commandChainStop s = ackTaken .chainStop (chainStopped s).2 (chainStopped s).1 := by
  rw [commandChainStop, whenIdle_of_ready ready]
  unfold chainStopped chainStopFilling
  cases s.chain.state with
  | filling => cases s.chain.work <;> rfl
  | _ => rfl

theorem chainStopped_frame (s : State) : { (chainStopped s).1 with
    chain := s.chain, chainReq := s.chainReq, port := s.port, notice := s.notice
    noticeReq := s.noticeReq } = s := by
  unfold chainStopped
  cases s.chain.state with
  | filling =>
    cases s.chain.work <;> (apply State.eq_of_fields <;> simp [stopFilling])
  | _ => apply State.eq_of_fields <;> simp [chainTurnOff]

/-- A command that changed the engine, its request and its access at memory only, once it is acknowledged. -/
theorem ackTaken_of_engine {s u : State} (frame : { u with
      chain := s.chain, chainReq := s.chainReq, port := s.port, notice := s.notice
      noticeReq := s.noticeReq } = s) (c : Command) (arg : Word) :
    s.TakenTo (ackTaken c arg u) c arg ∧ (ackTaken c arg u).retire = s.retire ∧
      { ackTaken c arg u with
        chain := s.chain, chainReq := s.chainReq, port := s.port, sweep := s.sweep, cmd := s.cmd
        notice := s.notice, noticeReq := s.noticeReq } = s := by
  have cmd : u.cmd = s.cmd := (congrArg State.cmd frame :)
  have sweep : u.sweep = s.sweep := (congrArg State.sweep frame :)
  have retire : u.retire = s.retire := (congrArg State.retire frame :)
  refine ⟨takenTo_ackTaken c arg cmd sweep, by simp [retire], Eq.trans ?_ frame⟩
  apply State.eq_of_fields <;> simp [cmd, sweep]

theorem ackTaken_port (c : Command) (arg : Word) (s : State) : (ackTaken c arg s).port = s.port := by
  simp

/-- Settles O36: CHAIN_STOP by the engine's state and work. -/
theorem chainStops : Obligations.ChainStops := by
  refine ⟨abandonedBy_chain, fun s ready => ⟨_, ready_exec (c := .chainStop)
    (commandChainStop_of_ready ready), ?_⟩⟩
  obtain ⟨taken, retire, frame⟩ :=
    ackTaken_of_engine (chainStopped_frame s) .chainStop (chainStopped s).2
  have notices {ns : List Notice} (h : s.Raised (chainStopped s).1 ns) :=
    ackTaken_raised_after h .chainStop (chainStopped s).2
  refine ⟨retire, fun off => ?_, fun away => ?_, fun quiet => ?_, fun e filling done => ?_,
    fun filling undone => ?_, frame⟩
  · have stopped : chainStopped s = (s, 0#32) := by rw [chainStopped, off]
    rw [stopped] at taken ⊢
    exact ⟨ackTaken_chain _ _ _, ackTaken_chainReq _ _ _, ackTaken_port _ _ _, taken⟩
  · have stopped : chainStopped s = (chainTurnOff s, 0#32) := by
      rw [chainStopped]
      rcases away with state | state | state <;> rw [state]
    obtain ⟨chain, chainReq, port, raised⟩ := chainTurnOff_units s
    rw [stopped] at taken notices ⊢
    rw [ackTaken_chain, ackTaken_chainReq, ackTaken_port]
    exact ⟨chain, chainReq, port, taken, notices raised⟩
  · refine notices (ns := []) ?_
    unfold chainStopped
    rcases quiet with state | state
    · rw [state]
      exact .refl rfl rfl rfl rfl
    · rw [state]
      cases s.chain.work with
      | completion e => exact .refl rfl rfl rfl rfl
      | _ => exact (stopFilling_units s).2.2.2
  · have stopped : chainStopped s = ({ s with chain := { s.chain with stopAfter := true } }, 0#32) := by
      rw [chainStopped, filling, done]
    rw [stopped] at taken ⊢
    rw [ackTaken_chain, ackTaken_chainReq, ackTaken_port]
    exact ⟨rfl, rfl, rfl, taken⟩
  · have stopped : chainStopped s = (stopFilling s, BitVec.ofNat 32 s.chain.count) := by
      rw [chainStopped, filling]
      cases work : s.chain.work with
      | completion e => exact absurd work (undone e)
      | _ => rfl
    obtain ⟨chain, chainReq, port, -⟩ := stopFilling_units s
    rw [stopped] at taken ⊢
    rw [ackTaken_chain, ackTaken_chainReq, ackTaken_port]
    exact ⟨chain, port, chainReq, taken⟩

/-! ### CHAIN_FLUSH (R153) -/

/-- What CHAIN_FLUSH does before its acknowledgment, and the argument that it acknowledges (R153). -/
def chainFlushed (s : State) : State × Word :=
  if s.chain.state = .filling then (flushFilling s, s.flushArg) else (s, 0#32)

theorem commandChainFlush_of_ready {s : State} (ready : s.Ready)
    (on : s.chain.state = .filling ∨ s.chain.state = .fetch ∨ s.chain.state = .held) :
    commandChainFlush s = ackTaken .chainFlush (chainFlushed s).2 (chainFlushed s).1 := by
  rw [commandChainFlush, whenIdle_of_ready ready, chainFlushed]
  rcases on with state | state | state <;> rw [state] <;> rfl

/-- Nothing is flushed but a FILLING descriptor that holds records and whose end is not yet due. -/
theorem chainFlushed_of_idle {s : State} (idle : s.chain.state ≠ .filling ∨ s.chain.count = 0 ∨
    ∃ e, s.chain.work = .completion e) : chainFlushed s = (s, 0#32) := by
  unfold chainFlushed flushFilling State.flushArg
  by_cases filling : s.chain.state = .filling
  · rcases idle with other | empty | ⟨e, done⟩
    · exact absurd filling other
    · cases work : s.chain.work <;> simp [filling, empty]
    · simp [filling, done]
  · simp [filling]

theorem chainFlushed_of_record {s : State} {k : Fin 8} (filling : s.chain.state = .filling)
    (some : 0 < s.chain.count) (work : s.chain.work = .record k) : chainFlushed s =
      ({ s with chain := { s.chain with pendingFlush := true } }, BitVec.ofNat 32 s.chain.count) := by
  simp [chainFlushed, flushFilling, State.flushArg, filling, work, Nat.ne_of_gt some]

theorem chainFlushed_of_rest {s : State} (filling : s.chain.state = .filling)
    (some : 0 < s.chain.count) (work : s.chain.work = .none) : chainFlushed s =
      (endDescriptor .flush s, BitVec.ofNat 32 s.chain.count) := by
  simp [chainFlushed, flushFilling, State.flushArg, filling, work, Nat.ne_of_gt some]

theorem flushFilling_kept (s : State) : s.Raised (flushFilling s) [] ∧ { flushFilling s with
    chain := s.chain, chainReq := s.chainReq, port := s.port, notice := s.notice
    noticeReq := s.noticeReq } = s ∧ (flushFilling s).port = s.port := by
  have ended : s.Raised (endDescriptor .flush s) [] ∧ { endDescriptor .flush s with
      chain := s.chain, chainReq := s.chainReq, port := s.port, notice := s.notice
      noticeReq := s.noticeReq } = s ∧ (endDescriptor .flush s).port = s.port := by
    refine ⟨.refl (by simp) (by simp) (by simp) (by simp), ?_, by simp⟩
    apply State.eq_of_fields <;> simp
  have kept : s.Raised s [] := .refl rfl rfl rfl rfl
  unfold flushFilling
  split
  · exact ⟨kept, rfl, rfl⟩
  · cases s.chain.work with
    | completion e => exact ⟨kept, rfl, rfl⟩
    | record k => exact ⟨.refl rfl rfl rfl rfl, rfl, rfl⟩
    | _ => exact ended

theorem chainFlushed_kept (s : State) : s.Raised (chainFlushed s).1 [] ∧ { (chainFlushed s).1 with
    chain := s.chain, chainReq := s.chainReq, port := s.port, notice := s.notice
    noticeReq := s.noticeReq } = s ∧ (chainFlushed s).1.port = s.port := by
  unfold chainFlushed
  split
  · exact flushFilling_kept s
  · exact ⟨.refl rfl rfl rfl rfl, rfl, rfl⟩

/-- Settles O37: CHAIN_FLUSH by the engine's state and work. -/
theorem chainFlushes : Obligations.ChainFlushes := by
  refine fun s ready on => ⟨_, ready_exec (c := .chainFlush) (commandChainFlush_of_ready ready on), ?_⟩
  obtain ⟨raised, frame, port⟩ := chainFlushed_kept s
  obtain ⟨taken, -, rest⟩ := ackTaken_of_engine frame .chainFlush (chainFlushed s).2
  refine ⟨fun idle => ?_, fun k filling some work => ?_, fun filling some work => ?_,
    ackTaken_raised_after raised .chainFlush (chainFlushed s).2, ?_⟩
  · rw [chainFlushed_of_idle idle] at taken ⊢
    exact ⟨ackTaken_chain _ _ _, ackTaken_chainReq _ _ _, taken⟩
  · rw [chainFlushed_of_record filling some work] at taken ⊢
    rw [ackTaken_chain, ackTaken_chainReq]
    exact ⟨rfl, rfl, taken⟩
  · rw [chainFlushed_of_rest filling some work] at taken ⊢
    rw [ackTaken_chain, ackTaken_chainReq]
    exact ⟨endDescriptor_chain _ _, endDescriptor_chainReq _ _, taken⟩
  · rw [← ackTaken_port .chainFlush (chainFlushed s).2] at port
    rw [← port] at rest
    exact rest

end Sys2Proof.Proofs
end

section
/-! PROOFS. Memory's answers to the chain engine (O38, O41). -/

namespace Sys2Proof.Proofs

open Sys2Proof Sys2Proof.Machine Sys2Proof.Laws

/-! ### The answered access (R20, R145) -/

theorem chainAnswer_of_granted {s : State} {job : Job} {a : MemAccess}
    (port : s.port = some ⟨job, a, false⟩) (act : State → State) :
    chainAnswer job act s = act (freePort s) := by
  simp [chainAnswer, port]

theorem chainAnswer_of_abandoned {s : State} {job : Job} {a : MemAccess}
    (port : s.port = some ⟨job, a, true⟩) (act : State → State) :
    chainAnswer job act s = afterAbandoned (freePort s) := by
  simp [chainAnswer, port]

/-- With the port free an access of the engine is presented at once. -/
theorem chainPresents_of_free {s : State} (free : s.port = none) (job : Job) (a : MemAccess) :
    s.chainPresents job a = ⟨some ⟨job, a⟩, 0⟩ := by
  simp [State.chainPresents, State.atMemory, free]

theorem freePort_raised (s : State) : s.Raised (freePort s) [] := .refl rfl rfl rfl rfl

/-! ### Descriptor words (R147) -/

theorem descriptorFetched_of_refused {s : State} {e : EndCause}
    (refused : (e = .empty ∧ descCapacity s.chain.control = 0) ∨
      (e = .align ∧ descCapacity s.chain.control ≠ 0 ∧ s.chain.area.toNat % 32 ≠ 0)) :
    descriptorFetched s = beginWork (.refusal e) s := by
  rcases refused with ⟨rfl, none⟩ | ⟨rfl, some, misaligned⟩
  · exact if_pos none
  · exact (if_neg some).trans (if_pos misaligned)

theorem descriptorFetched_of_good {s : State} (room : descCapacity s.chain.control ≠ 0)
    (aligned : s.chain.area.toNat % 32 = 0) : descriptorFetched s =
      chainPump { s with chain := { s.chain with state := .filling, count := 0, work := .none } } :=
  (if_neg room).trans (if_neg (not_not_intro aligned))

theorem beginWork_refusal_chainReq (e : EndCause) (s : State) : (beginWork (.refusal e) s).chainReq =
    s.chainPresents .chainCompletion ⟨s.chain.descAddr + 12#32,
      .write (completionWord true e 0) 0xF#4⟩ := rfl

theorem beginWork_record_chainReq {s : State} {r : Retired} {rest : List Retired}
    (retire : s.retire = r :: rest) (k : Fin 8) : (beginWork (.record k) s).chainReq =
      s.chainPresents .chainRecord ⟨s.chain.area + BitVec.ofNat 32 (32 * s.chain.count + 4 * k.val),
        .write (r.record.word k) 0xF#4⟩ := by
  unfold beginWork presentWork
  simp only [retire]
  rfl

/-- A FILLING engine that is free takes the head record up, if there is one (R148). -/
theorem chainPump_of_rest {s : State} (filling : s.chain.state = .filling) (work : s.chain.work = .none)
    (free : s.port = none) : (s.retire = [] → chainPump s = s) ∧
      (∀ r rest, s.retire = r :: rest → (chainPump s).chain = { s.chain with work := .record 0 } ∧
        (chainPump s).chainReq = ⟨some ⟨.chainRecord, ⟨s.chain.area +
          BitVec.ofNat 32 (32 * s.chain.count), .write (r.record.word 0) 0xF#4⟩⟩, 0⟩) := by
  refine ⟨fun empty => if_neg fun h => h.2.2 empty, fun r rest head => ?_⟩
  have pumped : chainPump s = beginWork (.record 0) s := if_pos ⟨filling, work, by simp [head]⟩
  rw [pumped, beginWork_record_chainReq head, chainPresents_of_free free]
  exact ⟨beginWork_chain _ _, rfl⟩

/-- A good descriptor is FILLING from its first record (R147, step 5). -/
theorem descriptorFetched_good {s : State} (room : descCapacity s.chain.control ≠ 0)
    (aligned : s.chain.area.toNat % 32 = 0) (free : s.port = none) :
    (s.retire = [] → (descriptorFetched s).chain = { s.chain with
        state := .filling, count := 0, work := .none } ∧
      (descriptorFetched s).chainReq = s.chainReq) ∧
    (∀ r rest, s.retire = r :: rest → (descriptorFetched s).chain = { s.chain with
        state := .filling, count := 0, work := .record 0 } ∧
      (descriptorFetched s).chainReq =
        ⟨some ⟨.chainRecord, ⟨s.chain.area, .write (r.record.word 0) 0xF#4⟩⟩, 0⟩) := by
  rw [descriptorFetched_of_good room aligned]
  obtain ⟨empty, head⟩ := chainPump_of_rest (s := { s with
    chain := { s.chain with state := .filling, count := 0, work := .none } }) rfl rfl free
  refine ⟨fun none => by rw [empty none]; exact ⟨rfl, rfl⟩, fun r rest waits => ?_⟩
  obtain ⟨chain, chainReq⟩ := head r rest waits
  refine ⟨chain, chainReq.trans ?_⟩
  simp

theorem descriptorWord_of_work {s : State} {data : Word} :
    (s.chain.work = .descriptor 0 → descriptorWord data s =
      beginWork (.descriptor 1) { s with chain := { s.chain with control := data } }) ∧
    (s.chain.work = .descriptor 1 → descriptorWord data s =
      beginWork (.descriptor 2) { s with chain := { s.chain with next := data } }) ∧
    (s.chain.work = .descriptor 2 → descriptorWord data s =
      descriptorFetched { s with chain := { s.chain with area := data } }) := by
  refine ⟨fun work => ?_, fun work => ?_, fun work => ?_⟩ <;> rw [descriptorWord, work]

theorem rereadWord_of_work {s : State} {data : Word} :
    (s.chain.work = .rereadControl → rereadWord data s = rereadNextWord (descHold data) s) ∧
    (s.chain.work = .rereadNext true → rereadWord data s = setChainState .held .stillHeld s) ∧
    (s.chain.work = .rereadNext false → rereadWord data s = fetchBegin data s) := by
  refine ⟨fun work => ?_, fun work => ?_, fun work => ?_⟩ <;> rw [rereadWord, work]

/-- A re-read word raises one notice at most. -/
theorem rereadWord_raised (data : Word) (s : State) : ∃ ns, s.Raised (rereadWord data s) ns := by
  unfold rereadWord
  split
  · exact ⟨[], (beginWork_raised _ _).congr_left rfl rfl rfl rfl⟩
  · exact ⟨_, setChainState_raised _ _ _⟩
  · by_cases aligned : data.toNat % 16 = 0
    · exact ⟨_, (fetchBegin_aligned aligned s).2.2⟩
    · exact ⟨_, (fetchBegin_misaligned aligned s).2.2⟩
  all_goals exact ⟨[], .refl rfl rfl rfl rfl⟩

/-- Settles O38: the descriptor words and the re-read words, by the work in progress. -/
theorem descriptorWordsArrive : Obligations.DescriptorWordsArrive := by
  refine fun s a data => ⟨fun port => ?_, fun port => ?_⟩
  · have run : chainDescReadDone (.ok data) s = descriptorWord data (freePort s) :=
      chainAnswer_of_granted port _
    have free (c : Chain) (job : Job) (b : MemAccess) :
        State.chainPresents { freePort s with chain := c } job b = ⟨some ⟨job, b⟩, 0⟩ :=
      chainPresents_of_free rfl job b
    obtain ⟨first, second, third⟩ := descriptorWord_of_work (s := freePort s) (data := data)
    refine ⟨_, exec_of_effect run, by simp [freePort], fun work => ?_, fun work => ?_,
      fun e work refused => ?_, fun work some aligned => ?_, ?_⟩
    · rw [first work]
      exact ⟨beginWork_chain _ _, (beginWork_descriptor_chainReq _ _).trans (free _ _ _)⟩
    · rw [second work]
      exact ⟨beginWork_chain _ _, (beginWork_descriptor_chainReq _ _).trans (free _ _ _)⟩
    · rw [third work, descriptorFetched_of_refused refused]
      exact ⟨beginWork_chain _ _, (beginWork_refusal_chainReq _ _).trans (free _ _ _)⟩
    · rw [third work]
      exact descriptorFetched_good (s := { freePort s with
        chain := { (freePort s).chain with area := data } }) some aligned rfl
    · apply State.eq_of_fields <;> simp [freePort]
  · have run : chainRereadDone (.ok data) s = rereadWord data (freePort s) :=
      chainAnswer_of_granted port _
    have free (c : Chain) (job : Job) (b : MemAccess) :
        State.chainPresents { freePort s with chain := c } job b = ⟨some ⟨job, b⟩, 0⟩ :=
      chainPresents_of_free rfl job b
    obtain ⟨first, held, fetched⟩ := rereadWord_of_work (s := freePort s) (data := data)
    obtain ⟨ns, raised⟩ := rereadWord_raised data (freePort s)
    refine ⟨_, exec_of_effect run, by simp [freePort], fun work => ?_, fun work => ?_,
      fun work aligned => ?_, fun work misaligned => ?_, raised.kept, ?_⟩
    · rw [first work]
      exact ⟨beginWork_chain _ _, free s.chain _ _, (beginWork_raised _ _).congr_left rfl rfl rfl rfl⟩
    · rw [held work]
      exact ⟨setChainState_chain _ _ _, by simp [freePort],
        (setChainState_raised _ _ _).congr_left rfl rfl rfl rfl⟩
    · rw [fetched work]
      obtain ⟨chain, chainReq, raised⟩ := fetchBegin_aligned aligned (freePort s)
      exact ⟨chain, chainReq.trans (free _ _ _), raised.congr_left rfl rfl rfl rfl⟩
    · rw [fetched work]
      obtain ⟨faulted, chainReq, raised⟩ := fetchBegin_misaligned misaligned (freePort s)
      exact ⟨faulted, chainReq, raised.congr_left rfl rfl rfl rfl⟩
    · apply State.eq_of_fields <;> simp [freePort]

/-! ### Errors and abandoned accesses (R145, R151, R154) -/

theorem chainMemoryFault_units (s : State) :
    s.chain.FaultedTo (chainMemoryFault s).chain .memory ∧
      State.Raised { s with notice := { s.notice with memory := true } } (chainMemoryFault s)
        [⟨.chainState, 0#8, 4#4, 6#4, BitVec.ofNat 16 s.chain.state.code, s.chain.descAddr, 0#24⟩] :=
  ⟨chainFault_faultedTo .memory (setMemoryFlag s), chainFault_raised .memory (setMemoryFlag s)⟩

/-- An abandoned access is answered: the access that waited for it is presented (R154). -/
theorem afterAbandoned_of_none {s : State} (none : s.chainReq.req = none) :
    afterAbandoned s = presentWork s := by rw [afterAbandoned, none]

theorem afterAbandoned_of_wanting {s : State} (wanting : s.chainReq.req ≠ none) :
    afterAbandoned s = s := by
  unfold afterAbandoned
  cases req : s.chainReq.req with
  | none => exact absurd req wanting
  | some _ => rfl

/-- What the engine presents behind an abandoned access (R145, R154). -/
theorem afterAbandoned_chainReq {s : State} (free : s.port = none) :
    (s.chainReq.req ≠ none ∨ s.chain.work = .none → (afterAbandoned s).chainReq = s.chainReq) ∧
    (∀ k : Fin 3, s.chainReq.req = none → s.chain.work = .descriptor k →
      (afterAbandoned s).chainReq = ⟨some ⟨.chainDesc,
        ⟨s.chain.descAddr + BitVec.ofNat 32 (4 * k.val), .read⟩⟩, 0⟩) ∧
    (∀ e, s.chainReq.req = none → s.chain.work = .completion e →
      (afterAbandoned s).chainReq = ⟨some ⟨.chainCompletion, ⟨s.chain.descAddr + 12#32,
        .write (completionWord false e s.chain.count) 0xF#4⟩⟩, 0⟩) := by
  refine ⟨fun stands => ?_, fun k none work => ?_, fun e none work => ?_⟩
  · by_cases wanting : s.chainReq.req = none
    · have work := stands.resolve_left (not_not_intro wanting)
      rw [afterAbandoned_of_none wanting, presentWork, work]
    · rw [afterAbandoned_of_wanting wanting]
  · rw [afterAbandoned_of_none none, presentWork, work]
    exact chainPresents_of_free free _ _
  · rw [afterAbandoned_of_none none, presentWork, work]
    exact chainPresents_of_free free _ _

/-- Settles O41: an error's fault, and the discarded answer to an abandoned access. -/
theorem chainMemoryErrorFaults : Obligations.ChainMemoryErrorFaults := by
  refine ⟨fun s a job c which port => ?_, fun s a job c which port => ?_⟩
  · have run : effect c s = chainMemoryFault (freePort s) := by
      rcases which with ⟨rfl, rfl⟩ | ⟨rfl, rfl⟩ | ⟨rfl, rfl⟩ | ⟨rfl, rfl⟩
      all_goals exact chainAnswer_of_granted port _
    obtain ⟨faulted, raised⟩ := chainMemoryFault_units (freePort s)
    refine ⟨_, exec_of_effect run, by simp [freePort], faulted, ?_, ?_⟩
    · rintro u rfl
      exact raised.congr_left rfl rfl rfl rfl
    · apply State.eq_of_fields <;> simp [freePort]
  · have run : effect c s = afterAbandoned (freePort s) := by
      rcases which with ⟨rfl, x, rfl⟩ | ⟨rfl, x, rfl⟩ | ⟨rfl, x, rfl⟩ | ⟨rfl, x, rfl⟩
      all_goals exact chainAnswer_of_abandoned port _
    obtain ⟨stands, descriptor, completion⟩ := afterAbandoned_chainReq (s := freePort s) rfl
    refine ⟨_, exec_of_effect run, by simp [freePort], stands, descriptor, completion, ?_⟩
    apply State.eq_of_fields <;> simp [freePort]

end Sys2Proof.Proofs
end

section
/-! PROOFS. Records and completion words written to memory (O39, O40). -/

namespace Sys2Proof.Proofs

open Sys2Proof Sys2Proof.Machine Sys2Proof.Laws

/-! ### The words of a record (10.6) -/

theorem field_toNat {n : Nat} (x : BitVec n) (narrow : n ≤ 32) : field x.toNat 0 = x.setWidth 32 := by
  have below : x.toNat < 2 ^ 32 := Nat.lt_of_lt_of_le x.isLt (Nat.pow_le_pow_right (by decide) narrow)
  rw [field, BitVec.shiftLeft_zero]
  apply BitVec.eq_of_toNat_eq
  simp

theorem dispositionWord_head (d : Disposition) :
    d.word 0 = field d.tag.toNat 0 ||| field d.outcome.code 16 ||| field d.cause.code 20 |||
      flag d.viaPartner 24 ||| flag d.ruleIndex.isSome 25 ||| flag d.accountKey.isSome 26 |||
      flag d.forwardPresent 27 ||| flag d.overrun 28 := rfl

theorem dispositionWord_reads (d : Disposition) :
    d.word 2 = field d.batch.toNat 0 ||| field d.readsTaken 16 ||| flag d.reported[0] 20 |||
      flag d.reported[1] 21 ||| flag d.reported[2] 22 ||| flag d.reported[3] 23 |||
      field d.lateReads 24 ||| field d.lengthClass.code 28 ||| flag d.double 30 |||
      flag d.close 31 := by
  have word : d.word 2 = field d.batch.toNat 0 ||| field d.readsTaken 16 |||
      field (reportedCode d.reported) 20 ||| field d.lateReads 24 ||| field d.lengthClass.code 28 |||
      flag d.double 30 ||| flag d.close 31 := rfl
  rw [word, reportedCode_field]
  simp only [BitVec.or_assoc]

/-! ### A record word is accepted (R148, R149) -/

theorem recordWordAccepted_of_more {s : State} {k : Fin 8} (work : s.chain.work = .record k)
    (more : k ≠ 7) : recordWordAccepted s = beginWork (.record (k + 1)) s := by
  rw [recordWordAccepted, work]
  exact if_neg more

/-- The record that has left the buffer is counted (R148). -/
def leftBuffer (rest : List Retired) (s : State) : State :=
  { evalOccupancy { s with retire := rest } with
    chain := { s.chain with count := s.chain.count + 1, work := .none } }

theorem recordWordAccepted_of_last {s : State} {r : Retired} {rest : List Retired}
    (work : s.chain.work = .record 7) (retire : s.retire = r :: rest) :
    recordWordAccepted s = testDescriptorEnd r.boundary (leftBuffer rest s) := by
  have accepted : recordWordAccepted s = recordAccepted s := by
    rw [recordWordAccepted, work]
    rfl
  rw [accepted, recordAccepted, retire]
  simp [leftBuffer]

theorem leftBuffer_transport (rest : List Retired) (s : State) : (leftBuffer rest s).transport =
    { s.transport with
      occupancy :=
        if 48 ≤ (leftBuffer rest s).occupancySum then true
        else if (leftBuffer rest s).occupancySum ≤ 39 then false else s.transport.occupancy
      feedHold := (leftBuffer rest s).holdLevel } := by
  have sum : (leftBuffer rest s).occupancySum = State.occupancySum { s with retire := rest } := by
    simp [leftBuffer, State.occupancySum, State.transitCount, State.retireCount]
  rw [sum, ← nextOccupancy_eq]
  exact evalOccupancy_transport _

theorem leftBuffer_raised (rest : List Retired) (s : State) : s.Raised (leftBuffer rest s)
    (if (leftBuffer rest s).transport.feedHold = s.transport.feedHold then []
      else [(leftBuffer rest s).feedHoldNotice]) := by
  have raised := (evalOccupancy_raised { s with retire := rest }).congr_left (s' := s) rfl rfl rfl rfl
  have counted : State.Raised (evalOccupancy { s with retire := rest }) (leftBuffer rest s) [] :=
    .refl rfl rfl rfl rfl
  have both := raised.trans counted
  rw [List.append_nil] at both
  exact both

/-- The end that an accepted record brings, in the order of precedence of R149. -/
theorem testDescriptorEnd_of_end {boundary : Bool} {s : State} {e : EndCause}
    (due : (e = .batch ∧ boundary = true ∧ descBatchClose s.chain.control = true) ∨
      (e = .full ∧ ¬(boundary = true ∧ descBatchClose s.chain.control = true) ∧
        s.chain.count = descCapacity s.chain.control) ∨
      (e = .flush ∧ ¬(boundary = true ∧ descBatchClose s.chain.control = true) ∧
        s.chain.count ≠ descCapacity s.chain.control ∧ s.chain.pendingFlush = true)) :
    testDescriptorEnd boundary s = endDescriptor e s := by
  rcases due with ⟨rfl, closes⟩ | ⟨rfl, open', full⟩ | ⟨rfl, open', room, flush⟩
  · exact if_pos (by simpa using closes)
  · exact (if_neg (by simpa using open')).trans (if_pos full)
  · exact (if_neg (by simpa using open')).trans ((if_neg room).trans (if_pos flush))

theorem testDescriptorEnd_of_none {boundary : Bool} {s : State}
    (stays : ¬(boundary = true ∧ descBatchClose s.chain.control = true))
    (room : s.chain.count ≠ descCapacity s.chain.control) (unflushed : s.chain.pendingFlush = false) :
    testDescriptorEnd boundary s = chainPump s :=
  (if_neg (by simpa using stays)).trans ((if_neg room).trans (if_neg (by simp [unflushed])))

theorem testDescriptorEnd_raised {s t : State} {ns : List Notice} (h : s.Raised t ns) (boundary : Bool) :
    s.Raised (testDescriptorEnd boundary t) ns := by
  have both := h.trans (.refl (t := testDescriptorEnd boundary t) (by simp) (by simp) (by simp) (by simp))
  rwa [List.append_nil] at both

/-- Settles O39: the words of a record, and the acceptance of each. -/
theorem recordWordsAccepted : Obligations.RecordWordsAccepted := by
  refine ⟨fun _ _ => rfl, fun _ _ => rfl, fun d => ⟨dispositionWord_head d, dispositionWord_pockets d,
    dispositionWord_reads d, field_toNat _ (by decide), field_toNat _ (by decide),
    fun key => dispositionWord_key, dispositionWord_noKey⟩, by decide, by decide, by decide,
    fun s a k r rest port work filling retire => ?_⟩
  have run : chainRecordWordDone .ok s = recordWordAccepted (freePort s) :=
    chainAnswer_of_granted port _
  by_cases last : k = 7
  · subst last
    have tested := run.trans (recordWordAccepted_of_last (s := freePort s) work retire)
    have raised := testDescriptorEnd_raised ((leftBuffer_raised rest (freePort s)).congr_left (s' := s)
      rfl rfl rfl rfl) r.boundary
    have transport := leftBuffer_transport rest (freePort s)
    have chain : (leftBuffer rest (freePort s)).chain =
      { s.chain with count := s.chain.count + 1, work := .none } := rfl
    have units : (leftBuffer rest (freePort s)).port = none ∧
        (leftBuffer rest (freePort s)).retire = rest ∧
        (leftBuffer rest (freePort s)).chainReq = s.chainReq := by simp [leftBuffer, freePort]
    have frame : { testDescriptorEnd r.boundary (leftBuffer rest (freePort s)) with
        port := s.port, retire := s.retire, transport := s.transport, chain := s.chain
        chainReq := s.chainReq, notice := s.notice, noticeReq := s.noticeReq } = s := by
      apply State.eq_of_fields <;> simp [leftBuffer, freePort]
    generalize leftBuffer rest (freePort s) = u at *
    obtain ⟨free, left, request⟩ := units
    have sum : (testDescriptorEnd r.boundary u).occupancySum = u.occupancySum := by
      simp [State.occupancySum, State.transitCount, State.retireCount]
    obtain ⟨level, -, notice⟩ := State.hold_congr (s := u) (t := testDescriptorEnd r.boundary u)
      (by simp) (by simp) (by simp) (by simp)
    have kept : (testDescriptorEnd r.boundary u).transport = u.transport := by simp
    refine ⟨_, exec_of_effect tested, by simp [free], fun more => absurd rfl more, fun _ =>
      ⟨by simp [left], by rw [kept, sum, level, transport]; rfl, fun e due => ?_,
        fun stays room unflushed => ?_⟩, ?_, frame⟩
    · have ended := testDescriptorEnd_of_end (boundary := r.boundary) (s := u) (e := e)
        (by rw [chain]; exact due)
      rw [ended, endDescriptor_chain, endDescriptor_chainReq, chainPresents_of_free free, chain]
      exact ⟨rfl, rfl⟩
    · have pumped := testDescriptorEnd_of_none (boundary := r.boundary) (s := u)
        (by rw [chain]; exact stays) (by rw [chain]; exact room) (by rw [chain]; exact unflushed)
      obtain ⟨empty, head⟩ := chainPump_of_rest (s := u) (by rw [chain]; exact filling) (by rw [chain]) free
      rw [left] at empty head
      rw [pumped]
      refine ⟨fun none => ?_, fun r' rest' waits => ?_⟩
      · rw [empty none]
        exact ⟨chain, request⟩
      · have begun := head r' rest' waits
        rw [chain] at begun
        exact begun
    · rw [kept, notice]
      exact raised
  · have begun := run.trans (recordWordAccepted_of_more (s := freePort s) work last)
    have presented := beginWork_record_chainReq (s := freePort s) (rest := rest) retire (k + 1)
    rw [chainPresents_of_free (s := freePort s) rfl] at presented
    refine ⟨_, exec_of_effect begun, by simp [freePort], fun _ => ⟨by simp [freePort], by simp [freePort],
      beginWork_chain _ _, presented⟩, fun other => absurd other last, ?_, ?_⟩
    · have level : (beginWork (.record (k + 1)) (freePort s)).transport.feedHold =
          s.transport.feedHold := by simp [freePort]
      rw [if_pos level]
      exact (beginWork_raised _ _).congr_left rfl rfl rfl rfl
    · apply State.eq_of_fields <;> simp [freePort]

/-! ### The completion word is accepted (R147, R150) -/

/-- The notices of a completed descriptor (R150, step 1). -/
def doneNotices (e : EndCause) (s : State) : List Notice :=
  if bitAt s.chain.control 17 then
    [⟨.chainDescDone, 0#8, BitVec.ofNat 4 e.code, 0#4, BitVec.ofNat 16 s.chain.count,
      s.chain.descAddr, 0#24⟩]
  else []

theorem notifyDone_raised (e : EndCause) (s : State) : s.Raised (notifyDone e s) (doneNotices e s) := by
  unfold notifyDone doneNotices descNotify
  split
  · exact raise_raised _ s
  · exact .refl rfl rfl rfl rfl

theorem notifyDone_chain (e : EndCause) (s : State) : (notifyDone e s).chain = s.chain := by
  unfold notifyDone
  split <;> simp

theorem leaveDescriptor_of_stop {e : EndCause} {s : State} (stops : e = .stop ∨ s.chain.stopAfter = true) :
    leaveDescriptor e s =
      setChainState .off .stop { s with chain := { s.chain with stopAfter := false } } :=
  if_pos stops

theorem leaveDescriptor_of_held {e : EndCause} {s : State} {cause : ChainCause} (goes : e ≠ .stop)
    (on : s.chain.stopAfter = false)
    (held : (cause = .hold ∧ s.chain.mode = .hold ∧ bitAt s.chain.control 16 = true) ∨
      (cause = .lastAddress ∧ s.chain.mode = .lastAddress ∧ s.chain.descAddr = s.chain.last)) :
    leaveDescriptor e s = setChainState .held cause s := by
  rw [leaveDescriptor, if_neg (by simp [goes, on])]
  rcases held with ⟨rfl, mode, hold⟩ | ⟨rfl, mode, last⟩
  · rw [mode]
    exact if_pos hold
  · rw [mode]
    exact if_pos last

theorem leaveDescriptor_of_next {e : EndCause} {s : State} (goes : e ≠ .stop)
    (on : s.chain.stopAfter = false)
    (next : (s.chain.mode = .hold ∧ bitAt s.chain.control 16 = false) ∨
      (s.chain.mode = .lastAddress ∧ s.chain.descAddr ≠ s.chain.last)) :
    leaveDescriptor e s = fetchBegin s.chain.next s := by
  rw [leaveDescriptor, if_neg (by simp [goes, on])]
  rcases next with ⟨mode, hold⟩ | ⟨mode, last⟩
  · rw [mode]
    exact if_neg (by simp [descHold, hold])
  · rw [mode]
    exact if_neg last

/-- Every way out of a descriptor raises its notices behind those of its completion. -/
theorem leaveDescriptor_raised (e : EndCause) (s : State) : ∃ ns, s.Raised (leaveDescriptor e s) ns := by
  have fetched (addr : Word) : ∃ ns, s.Raised (fetchBegin addr s) ns := by
    by_cases aligned : addr.toNat % 16 = 0
    · exact ⟨_, (fetchBegin_aligned aligned s).2.2⟩
    · exact ⟨_, (fetchBegin_misaligned aligned s).2.2⟩
  unfold leaveDescriptor
  split
  · exact ⟨_, (setChainState_raised _ _ _).congr_left rfl rfl rfl rfl⟩
  · cases s.chain.mode with
    | hold =>
      dsimp only
      split
      · exact ⟨_, setChainState_raised _ _ _⟩
      · exact fetched _
    | lastAddress =>
      dsimp only
      split
      · exact ⟨_, setChainState_raised _ _ _⟩
      · exact fetched _

theorem completionAccepted_raised (s : State) : ∃ ns, s.Raised (completionAccepted s) ns := by
  unfold completionAccepted
  split
  · obtain ⟨ns, left⟩ := leaveDescriptor_raised _ (notifyDone _ s)
    exact ⟨_, (notifyDone_raised _ s).trans left⟩
  · exact ⟨_, chainFault_raised _ s⟩
  all_goals exact ⟨[], .refl rfl rfl rfl rfl⟩

theorem completionAccepted_of_work {s : State} :
    (∀ e, s.chain.work = .completion e →
      completionAccepted s = leaveDescriptor e (notifyDone e s)) ∧
    (∀ e, s.chain.work = .refusal e → completionAccepted s = chainFault (refusalFault e) s) := by
  refine ⟨fun e work => ?_, fun e work => ?_⟩ <;> rw [completionAccepted, work]

/-- The notices that the completion word in progress brings first (R150, step 1). -/
def completedNotices (s : State) : List Notice :=
  match s.chain.work with
  | .completion e => doneNotices e s
  | .none | .descriptor _ | .refusal _ | .rereadControl | .rereadNext _ | .record _ => []

theorem completedNotices_of_work {s : State} {e : EndCause} (work : s.chain.work = .completion e) :
    completedNotices s = doneNotices e s := by rw [completedNotices, work]

/-- A completion is reported before the engine leaves its descriptor (R150, step 1). -/
theorem completionAccepted_leaves {s : State} {e : EndCause} (work : s.chain.work = .completion e) :
    ∃ u, completionAccepted (freePort s) = leaveDescriptor e u ∧ u.chain = s.chain ∧
      u.chainReq = s.chainReq ∧ u.port = none ∧ s.Raised u (completedNotices s) := by
  refine ⟨notifyDone e (freePort s), (completionAccepted_of_work (s := freePort s)).1 e work,
    notifyDone_chain _ _, by simp [freePort], by simp [freePort], ?_⟩
  rw [completedNotices_of_work work]
  exact (notifyDone_raised e (freePort s)).congr_left rfl rfl rfl rfl

/-- The CHAIN_STATE notice of a way out of a descriptor is the engine's, as before the completion. -/
theorem chainNotice_congr {s t : State} (chain : t.chain = s.chain) (st : ChainState) (cause : ChainCause) :
    chainNotice st cause t = chainNotice st cause s := by rw [chainNotice, chainNotice, chain]

theorem setChainState_chainReq (st : ChainState) (cause : ChainCause) (s : State) :
    (setChainState st cause s).chainReq = s.chainReq := by simp

/-- Settles O40: the ways out of a completed descriptor, behind the notice of its completion. -/
theorem completionWordAccepted : Obligations.CompletionWordAccepted := by
  refine ⟨fun _ _ => rfl, fun _ _ => rfl, fun _ _ _ => rfl, by decide, fun s a port => ?_⟩
  have run : chainCompletionDone .ok s = completionAccepted (freePort s) :=
    chainAnswer_of_granted port _
  obtain ⟨ns, raised⟩ := completionAccepted_raised (freePort s)
  refine ⟨_, completedNotices s, exec_of_effect run, by simp [freePort], by simp [freePort],
    fun e work => completedNotices_of_work work, fun e work stops => ?_,
    fun e work goes on => ⟨fun cause held => ?_, fun next => ⟨fun aligned => ?_, fun misaligned => ?_⟩⟩,
    fun e f cause work which => ?_, raised.kept, ?_⟩
  · obtain ⟨u, leaves, chain, chainReq, free, done⟩ := completionAccepted_leaves work
    rw [leaves, leaveDescriptor_of_stop (by rw [chain]; exact stops), setChainState_chain,
      setChainState_chainReq]
    have turned := (setChainState_raised .off .stop
      { u with chain := { u.chain with stopAfter := false } }).congr_left (s' := u) rfl rfl rfl rfl
    refine ⟨?_, chainReq, ?_⟩
    · rw [chain]
    · rw [← chain]
      exact done.trans turned
  · obtain ⟨u, leaves, chain, chainReq, free, done⟩ := completionAccepted_leaves work
    have stays : ∃ c : ChainCause, c.code = cause ∧ leaveDescriptor e u = setChainState .held c u := by
      rw [← chain] at held on
      rcases held with ⟨rfl, mode, hold⟩ | ⟨rfl, mode, last⟩
      · exact ⟨.hold, rfl, leaveDescriptor_of_held goes on (.inl ⟨rfl, mode, hold⟩)⟩
      · exact ⟨.lastAddress, rfl, leaveDescriptor_of_held goes on (.inr ⟨rfl, mode, last⟩)⟩
    obtain ⟨c, rfl, stays⟩ := stays
    rw [leaves, stays, setChainState_chain, setChainState_chainReq, chain]
    have notices := done.trans (setChainState_raised .held c u)
    rw [chainNotice_congr chain] at notices
    exact ⟨rfl, chainReq, notices⟩
  · obtain ⟨u, leaves, chain, chainReq, free, done⟩ := completionAccepted_leaves work
    obtain ⟨begun, request, quiet⟩ := fetchBegin_aligned aligned u
    rw [chainPresents_of_free free] at request
    rw [chain] at begun
    have goesOn := leaveDescriptor_of_next (s := u) goes (by rw [chain]; exact on)
      (by rw [chain]; exact next)
    rw [chain] at goesOn
    have notices := done.trans quiet
    rw [List.append_nil] at notices
    rw [leaves, goesOn]
    exact ⟨begun, request, notices⟩
  · obtain ⟨u, leaves, chain, chainReq, free, done⟩ := completionAccepted_leaves work
    obtain ⟨faulted, request, notice⟩ := fetchBegin_misaligned misaligned u
    rw [chain] at faulted
    have goesOn := leaveDescriptor_of_next (s := u) goes (by rw [chain]; exact on)
      (by rw [chain]; exact next)
    rw [chain] at goesOn
    rw [leaves, goesOn]
    exact ⟨faulted, request.trans chainReq, done.trans notice⟩
  · have faulted : completionAccepted (freePort s) = chainFault f (freePort s) ∧ f.cause.code = cause := by
      have accepted := (completionAccepted_of_work (s := freePort s)).2 e work
      rcases which with ⟨rfl, rfl, rfl⟩ | ⟨rfl, rfl, rfl⟩ <;> exact ⟨accepted, rfl⟩
    obtain ⟨accepted, rfl⟩ := faulted
    rw [accepted]
    exact ⟨chainFault_faultedTo f (freePort s), by simp [freePort],
      (chainFault_raised f (freePort s)).congr_left rfl rfl rfl rfl⟩
  · apply State.eq_of_fields <;> simp [freePort]

end Sys2Proof.Proofs
end

section
/-! PROOFS. Command words and their refusals (O42, O43). -/

namespace Sys2Proof.Proofs

open Sys2Proof Sys2Proof.Machine Sys2Proof.Laws

/-! ### The word of a command (10.3) -/

theorem append_of_extracts (w : Word) : w.extractLsb' 8 24 ++ w.extractLsb' 0 8 = w := by
  apply BitVec.eq_of_getLsbD_eq
  intro i hi
  rw [BitVec.getLsbD_append]
  by_cases low : i < 8
  · simp [low]
  · simp [low, hi, show i - 8 < 24 by omega, show 8 + (i - 8) = i by omega]

theorem word_eq_iff (c : Command) (w : Word) : c.word = w ↔
    c.opcode = w.extractLsb' 0 8 ∧ c.argument = w.extractLsb' 8 24 := by
  refine ⟨fun h => ⟨by rw [← h, Laws.Command.word_opcode c], by rw [← h, Laws.Command.word_argument c]⟩, fun ⟨opcode, argument⟩ => ?_⟩
  rw [Command.word, opcode, argument]
  exact append_of_extracts w

/-! ### Decoding (R157) -/

theorem opcode_of_toNat {w : Word} {n : Nat} {b : Byte} (op : (w.extractLsb' 0 8).toNat = n)
    (same : b.toNat = n := by rfl) : b = w.extractLsb' 0 8 := BitVec.eq_of_toNat_eq (same.trans op.symm)

theorem ofNat_val_toNat {n : Nat} {arg : BitVec 24} (h : arg.toNat < n) :
    BitVec.ofNat 24 (⟨arg.toNat, h⟩ : Fin n).val = arg := by simp

theorem argument_of_plain {arg : BitVec 24} {c d : Command} (h : plainCommand arg d = some c) :
    d = c ∧ arg = 0#24 := by
  unfold plainCommand at h
  split at h
  case isTrue zero => exact ⟨Option.some.inj h, zero⟩
  case isFalse => exact absurd h nofun

theorem argument_of_pocket {arg : BitVec 24} {c : Command} {f : PocketIx → Command}
    (h : pocketCommand arg f = some c) : ∃ p : PocketIx, f p = c ∧ BitVec.ofNat 24 p.val = arg := by
  unfold pocketCommand at h
  split at h
  case isTrue inside => exact ⟨_, Option.some.inj h, ofNat_val_toNat inside⟩
  case isFalse => exact absurd h nofun

theorem argument_of_station {arg : BitVec 24} {c : Command} {f : StationIx → Command}
    (h : stationCommand arg f = some c) : ∃ st : StationIx, f st = c ∧ BitVec.ofNat 24 st.val = arg := by
  unfold stationCommand at h
  split at h
  case isTrue inside => exact ⟨_, Option.some.inj h, ofNat_val_toNat inside⟩
  case isFalse => exact absurd h nofun

theorem word_of_decode {w : Word} {c : Command} (h : decodeCommand w = some c) : c.word = w := by
  rw [word_eq_iff]
  unfold decodeCommand at h
  simp only at h
  split at h
  case h_1 op =>
    cases h
    exact ⟨opcode_of_toNat op, rfl⟩
  case h_2 op | h_3 op | h_4 op | h_5 op | h_9 op | h_16 op | h_17 op | h_18 op | h_19 op | h_22 op =>
    obtain ⟨rfl, zero⟩ := argument_of_plain h
    exact ⟨opcode_of_toNat op, zero.symm⟩
  case h_6 op | h_7 op | h_8 op | h_10 op | h_11 op | h_12 op =>
    obtain ⟨p, rfl, argument⟩ := argument_of_pocket h
    exact ⟨opcode_of_toNat op, argument⟩
  case h_13 op | h_14 op | h_15 op =>
    obtain ⟨st, rfl, argument⟩ := argument_of_station h
    exact ⟨opcode_of_toNat op, argument⟩
  case h_20 op =>
    unfold maskCommand at h
    split at h
    case isTrue byte =>
      cases h
      refine ⟨opcode_of_toNat op, BitVec.eq_of_toNat_eq ?_⟩
      simp only [Command.argument, BitVec.toNat_ofNat, BitVec.toNat_setWidth]
      omega
    case isFalse => exact absurd h nofun
  case h_21 op =>
    unfold modeCommand at h
    split at h
    case isTrue level =>
      cases h
      exact ⟨opcode_of_toNat op, level.symm⟩
    case isFalse =>
      split at h
      case isTrue first =>
        cases h
        exact ⟨opcode_of_toNat op, first.symm⟩
      case isFalse => exact absurd h nofun
  case h_23 => exact absurd h nofun

theorem pocketCommand_ofNat (p : PocketIx) (f : PocketIx → Command) :
    pocketCommand (BitVec.ofNat 24 p.val) f = some (f p) := by
  have value : (BitVec.ofNat 24 p.val).toNat = p.val := by simp; omega
  simp [pocketCommand, value]

theorem stationCommand_ofNat (st : StationIx) (f : StationIx → Command) :
    stationCommand (BitVec.ofNat 24 st.val) f = some (f st) := by
  have value : (BitVec.ofNat 24 st.val).toNat = st.val := by simp; omega
  simp [stationCommand, value]

theorem maskCommand_ofNat (mask : BitVec 8) :
    maskCommand (BitVec.ofNat 24 mask.toNat) = some (.setNoticeMask mask) := by
  have value : (BitVec.ofNat 24 mask.toNat).toNat = mask.toNat := by simp; omega
  rw [maskCommand, if_pos (by rw [value]; exact mask.isLt)]
  congr 2
  apply BitVec.eq_of_toNat_eq
  simp

theorem decode_word (c : Command) : decodeCommand c.word = some c := by
  unfold decodeCommand
  rw [Laws.Command.word_opcode c, Laws.Command.word_argument c]
  cases c with
  | sweepFirst p | sweepLast p | sweepExclude p => exact pocketCommand_ofNat p _
  | pocketOpen p | pocketDisable p | pocketEnable p => exact pocketCommand_ofNat p _
  | stationEnable st | stationDisable st | stationRestart st => exact stationCommand_ofNat st _
  | setNoticeMask mask => exact maskCommand_ofNat mask
  | setAttnMode mode => cases mode <;> rfl
  | _ => rfl

/-- A word decodes to a command exactly when it is that command's word. -/
theorem decodeCommand_eq_some_iff (w : Word) (c : Command) : decodeCommand w = some c ↔ c.word = w :=
  ⟨word_of_decode, fun h => h ▸ decode_word c⟩

/-- Settles O42: the fields of a command word, and its decoding. -/
theorem commandWordsDecode : Obligations.CommandWordsDecode := by
  refine ⟨fun _ _ _ => rfl, fun _ _ => rfl, fun c => ⟨(Laws.Command.word_opcode c).symm, (Laws.Command.word_argument c).symm⟩,
    fun c => ?_, decodeCommand_eq_some_iff⟩
  cases c with
  | setAttnMode mode => cases mode <;> rfl
  | setNoticeMask mask =>
    have argument : BitVec.ofNat 24 mask.toNat = mask.setWidth 24 := by
      apply BitVec.eq_of_toNat_eq
      simp
    exact congrArg (· ++ 0x50#8) argument
  | _ => rfl

/-! ### Refusals (R157, R159) -/

theorem acceptCommandWord_eq_none {w : Word} {e : Enables} (h : e ≠ 0xF#4 ∨ ∀ c : Command, c.word ≠ w) :
    acceptCommandWord w e = none := by
  unfold acceptCommandWord
  by_cases full : e = 0xF#4
  · rw [if_pos ((fullWrite_iff e).2 full), Option.eq_none_iff_forall_not_mem]
    exact fun c spelled => h.resolve_left (not_not_intro full) c (word_of_decode spelled)
  · rw [if_neg fun whole => full ((fullWrite_iff e).1 whole)]

theorem badCommand_of_unspelled {s : State} (released : s.resetLow = false) {w : Word} {e : Enables}
    (h : e ≠ 0xF#4 ∨ ∀ c : Command, c.word ≠ w) : badCommand w e s = refuseWord w s := by
  rw [badCommand, if_neg (by simp [released]), commandSnoop, acceptCommandWord_eq_none h]

theorem whenIdle_of_executing {s : State} (released : s.resetLow = false)
    (executing : s.cmd.executing = true) (c : Command) (own : State → State) :
    whenIdle c own s = refuse c .busy s := by
  simp [whenIdle, released, executing]

theorem runCommand_of_executing {s : State} (released : s.resetLow = false)
    (executing : s.cmd.executing = true) {c : Command} (other : c ≠ .loadAbort) :
    runCommand c s = refuse c .busy s := by
  cases c with
  | loadAbort => exact absurd rfl other
  | pocketOpen p | pocketDisable p | pocketEnable p =>
    simp only [runCommand, commandPocketOpen, commandPocketDisable, commandPocketEnable]
    exact whenIdle_of_executing released executing _ _
  | stationEnable st | stationDisable st | stationRestart st =>
    simp only [runCommand, commandStationEnable, commandStationDisable, commandStationRestart]
    exact whenIdle_of_executing released executing _ _
  | _ =>
    simp only [runCommand]
    exact whenIdle_of_executing released executing _ _

/-- A command that is refused changes the last result and raises its acknowledgment only. -/
theorem exec_of_refused {s : State} {c : Command} {r : ResultCode} (h : runCommand c s = refuse c r s) :
    ∃ t, exec c.instr s = .next t ∧ s.RefusedTo t c r := ⟨_, ready_exec h, refuse_refusedTo c r s⟩

theorem commandLoadAbort_refused {s : State} (ready : s.Ready) :
    commandLoadAbort s = refuse .loadAbort .badState s := by
  obtain ⟨released, idle⟩ := ready
  simp [commandLoadAbort, released, idle]

theorem commandStart_refused {s : State} (ready : s.Ready) :
    (s.transport.line ≠ .stopped → commandStart s = refuse .start .badState s) ∧
    (s.transport.line = .stopped → s.plan.state ≠ .valid → commandStart s = refuse .start .noPlan s) := by
  refine ⟨fun moving => ?_, fun stopped unready => ?_⟩
  · rw [commandStart, whenIdle_of_ready ready]
    cases line : s.transport.line with
    | stopped => exact absurd line moving
    | running | stalled => rfl
  · rw [commandStart, whenIdle_of_ready ready, stopped]
    cases plan : s.plan.state with
    | valid => exact absurd plan unready
    | invalid | loading => rfl

theorem pocketCommandOn_refused {s : State} (ready : s.Ready) {p : PocketIx}
    (bad : p = 0 ∨ s.plan.pocketCount ≤ p.val) (c : Command) (own : State → State) :
    pocketCommandOn c p own s = refuse c .badArg s := by
  rw [pocketCommandOn, whenIdle_of_ready ready]
  exact if_pos (by simpa [State.pocketArgBad] using bad)

theorem commandPocketOpen_refused {s : State} (ready : s.Ready) {p : PocketIx} (zero : p ≠ 0)
    (below : p.val < s.plan.pocketCount) (unclosed : (s.pocket p).state ≠ .closed) :
    commandPocketOpen p s = refuse (.pocketOpen p) .badState s := by
  rw [commandPocketOpen, pocketCommandOn_of_ready ready zero below]
  cases state : (s.pocket p).state with
  | closed => exact absurd state unclosed
  | _ => rfl

theorem commandPocketEnable_refused {s : State} (ready : s.Ready) {p : PocketIx} (zero : p ≠ 0)
    (below : p.val < s.plan.pocketCount) (usable : (s.pocket p).state ≠ .disabled) :
    commandPocketEnable p s = refuse (.pocketEnable p) .badState s := by
  rw [commandPocketEnable, pocketCommandOn_of_ready ready zero below]
  cases state : (s.pocket p).state with
  | disabled => exact absurd state usable
  | _ => rfl

theorem commandPocketDisable_refused {s : State} (ready : s.Ready) {p : PocketIx} (zero : p ≠ 0)
    (below : p.val < s.plan.pocketCount) (disabled : (s.pocket p).state = .disabled) :
    commandPocketDisable p s = refuse (.pocketDisable p) .badState s := by
  rw [commandPocketDisable, pocketCommandOn_of_ready ready zero below, disablePocket, disabled]

theorem stationCommandOn_refused {s : State} (ready : s.Ready) {st : StationIx}
    (absent : s.stationAbsent st = true) (c : Command) (own : State → State) :
    stationCommandOn c st own s = refuse c .badArg s := by
  rw [stationCommandOn, whenIdle_of_ready ready, if_pos absent]

theorem commandStationEnable_refused {s : State} (ready : s.Ready) {st : StationIx}
    (present : s.stationAbsent st = false) (on : (s.station st).framing ≠ .off) :
    commandStationEnable st s = refuse (.stationEnable st) .badState s := by
  rw [commandStationEnable, stationCommandOn_of_ready ready present]
  cases framing : (s.station st).framing with
  | off => exact absurd framing on
  | _ => rfl

theorem commandStationRestart_refused {s : State} (ready : s.Ready) {st : StationIx}
    (present : s.stationAbsent st = false) (off : (s.station st).framing = .off) :
    commandStationRestart st s = refuse (.stationRestart st) .badState s := by
  rw [commandStationRestart, stationCommandOn_of_ready ready present, off]

theorem commandChainStart_refused {s : State} (ready : s.Ready) (on : s.chain.state ≠ .off)
    (sound : s.chain.state ≠ .fault) : commandChainStart s = refuse .chainStart .badState s := by
  rw [commandChainStart, whenIdle_of_ready ready]
  cases state : s.chain.state with
  | off => exact absurd state on
  | fault => exact absurd state sound
  | _ => rfl

theorem commandChainResume_refused {s : State} (ready : s.Ready)
    (unheld : ¬(s.chain.state = .held ∧ s.chain.mode = .hold)) :
    commandChainResume s = refuse .chainResume .badState s := by
  rw [commandChainResume, whenIdle_of_ready ready]
  exact if_neg unheld

theorem commandChainFlush_refused {s : State} (ready : s.Ready)
    (away : s.chain.state = .off ∨ s.chain.state = .fault) :
    commandChainFlush s = refuse .chainFlush .badState s := by
  rw [commandChainFlush, whenIdle_of_ready ready]
  rcases away with state | state <;> rw [state]

theorem ackNotice_eq (r : CmdResult) : ackNotice r = ⟨.cmdAck, r.opcode, BitVec.ofNat 4 r.result.code,
    0#4, BitVec.ofNat 16 (32768 * r.sweepCancelled.toNat + (r.loadCause.map LoadCause.code).getD 0),
    r.arg, 0#24⟩ := by
  obtain ⟨_, _, _, cause, _⟩ := r
  cases cause <;> rfl

/-- Settles O43: the refusals by the command word, by EXECUTING, and by each owner's own check. -/
theorem commandsRefused : Obligations.CommandsRefused := by
  refine ⟨ackNotice_eq, by decide, by decide, fun s w e released unspelled => ?_,
    fun s c released executing other =>
      exec_of_refused (runCommand_of_executing released executing other),
    fun s c r ready which => exec_of_refused ?_⟩
  · refine ⟨_, exec_of_effect (badCommand_of_unspelled released unspelled), by simp [refuseWord], ?_, ?_⟩
    · have raised := acknowledge_raised ⟨w.extractLsb' 0 8, .badCommand, false, none, w⟩ s
      simpa [refuseWord] using raised
    · apply State.eq_of_fields <;> simp [refuseWord]
  · rcases which with ⟨rfl, rfl⟩ | ⟨rfl, moving, rfl⟩ | ⟨rfl, stopped, unready, rfl⟩ |
      ⟨p, which, bad, rfl⟩ | ⟨p, zero, below, rfl, which⟩ | ⟨st, which, absent, rfl⟩ |
      ⟨st, present, rfl, which⟩ | ⟨rfl, on, sound, rfl⟩ | ⟨rfl, unheld, rfl⟩ | ⟨rfl, away, rfl⟩
    · exact commandLoadAbort_refused ready
    · exact (commandStart_refused ready).1 moving
    · exact (commandStart_refused ready).2 stopped unready
    · rcases which with rfl | rfl | rfl
      · rw [runCommand, commandPocketOpen, pocketCommandOn_refused ready bad]
      · rw [runCommand, commandPocketDisable, pocketCommandOn_refused ready bad]
      · rw [runCommand, commandPocketEnable, pocketCommandOn_refused ready bad]
    · rcases which with ⟨rfl, state⟩ | ⟨rfl, state⟩ | ⟨rfl, state⟩
      · exact commandPocketOpen_refused ready zero below state
      · exact commandPocketEnable_refused ready zero below state
      · exact commandPocketDisable_refused ready zero below state
    · rcases which with rfl | rfl | rfl
      · rw [runCommand, commandStationEnable, stationCommandOn_refused ready absent]
      · rw [runCommand, commandStationDisable, stationCommandOn_refused ready absent]
      · rw [runCommand, commandStationRestart, stationCommandOn_refused ready absent]
    · rcases which with ⟨rfl, framing⟩ | ⟨rfl, framing⟩
      · exact commandStationEnable_refused ready present framing
      · exact commandStationRestart_refused ready present framing
    · exact commandChainStart_refused ready on sound
    · exact commandChainResume_refused ready unheld
    · exact commandChainFlush_refused ready away

end Sys2Proof.Proofs
end

section
/-! PROOFS. The notice commands (O44). -/

namespace Sys2Proof.Proofs

open Sys2Proof Sys2Proof.Machine Sys2Proof.Laws

/-! ### SET_NOTICE_MASK, SET_ATTN_MODE, STATUS_CLEAR (R160) -/

theorem commandSetNoticeMask_of_ready {s : State} (ready : s.Ready) (mask : BitVec 8) :
    commandSetNoticeMask mask s =
      ackTaken (.setNoticeMask mask) (mask.setWidth 32) (setMask mask s) := by
  rw [commandSetNoticeMask, whenIdle_of_ready ready]

theorem takeAttnMode_eq (mode : AttnMode) (s : State) : takeAttnMode mode s = { s with
    notice := { s.notice with
      mode := mode, armed := true
      attn := mode == .level && s.plan.layout.isSome && s.notice.producer != s.notice.consumer } } := by
  cases mode <;> rfl

theorem attnMode_ackArg (mode : AttnMode) :
    BitVec.ofNat 32 mode.code = if mode = .level then 0#32 else 1#32 := by
  cases mode <;> rfl

theorem commandSetAttnMode_of_ready {s : State} (ready : s.Ready) (mode : AttnMode) :
    commandSetAttnMode mode s =
      ackTaken (.setAttnMode mode) (if mode = .level then 0#32 else 1#32) (takeAttnMode mode s) := by
  rw [commandSetAttnMode, whenIdle_of_ready ready, attnMode_ackArg]

theorem commandStatusClear_of_ready {s : State} (ready : s.Ready) : commandStatusClear s =
    ackTaken .statusClear (BitVec.ofNat 32 s.notice.lostCount) (clearStatus s) := by
  rw [commandStatusClear, whenIdle_of_ready ready]

/-- A CMD_ACK is dropped where the FIFO is full, unless its class is masked (R161). -/
theorem dropped_ackNotice (s : State) (r : CmdResult) : s.dropped [ackNotice r] =
    if 32 ≤ s.notice.fifo.length ∧ s.notice.mask.getLsbD 0 = true then 1 else 0 := by
  have bit : noticeUnmasked s.notice.mask (ackNotice r).kind = s.notice.mask.getLsbD 0 := rfl
  unfold State.dropped
  by_cases unmasked : s.notice.mask.getLsbD 0 = true
  · rw [List.filter_cons_of_pos (by rw [bit]; exact unmasked)]
    simp only [List.filter_nil, List.length_singleton, unmasked, and_true, Config.maxFifo]
    split <;> omega
  · rw [List.filter_cons_of_neg (by rw [bit]; exact unmasked)]
    exact (Nat.zero_sub _).trans (if_neg fun h => unmasked h.2).symm

theorem clearStatus_station (s : State) (st : StationIx) :
    (clearStatus s).station st = { s.station st with rejects := 0 } := by
  simp [clearStatus, State.station, Station.clearRejects]

/-- Settles O44: the new registers of each command, and its acknowledgment behind them. -/
theorem noticeCommandsTaken : Obligations.NoticeCommandsTaken := by
  refine ⟨fun _ => rfl, fun s ready => ⟨?_, ?_, ?_⟩⟩
  · rintro mask u rfl
    refine ⟨_, ready_exec (c := .setNoticeMask mask) (commandSetNoticeMask_of_ready ready mask),
      takenTo_ackTaken _ _ rfl rfl, ackTaken_raised _ _ (setMask mask s), ?_⟩
    apply State.eq_of_fields <;> simp [setMask]
  · rintro mode u rfl
    rw [← takeAttnMode_eq]
    refine ⟨_, ready_exec (c := .setAttnMode mode) (commandSetAttnMode_of_ready ready mode),
      takenTo_ackTaken _ _, ackTaken_raised _ _ (takeAttnMode mode s), ?_⟩
    apply State.eq_of_fields <;> simp
  · rintro u rfl
    have raised := ackTaken_raised .statusClear (BitVec.ofNat 32 s.notice.lostCount) (clearStatus s)
    have count := raised.lostCount
    have lost := raised.lost
    rw [dropped_ackNotice] at count lost
    refine ⟨_, ready_exec (c := .statusClear) (commandStatusClear_of_ready ready),
      takenTo_ackTaken _ _ rfl rfl, fun st => ?_, fun room => ?_, fun full unmasked => ?_,
      raised.congr_left rfl rfl rfl rfl, ?_⟩
    · rw [station_congr (t := clearStatus s) (by simp), clearStatus_station]
    · have kept : ¬(32 ≤ (clearStatus s).notice.fifo.length ∧
          (clearStatus s).notice.mask.getLsbD 0 = true) := fun ⟨full, unmasked⟩ =>
        room.elim (fun below => absurd full (not_le.2 below)) fun masked =>
          Bool.false_ne_true (masked.symm.trans unmasked)
      rw [if_neg kept] at count lost
      exact ⟨count, lost⟩
    · rw [if_pos ⟨full, unmasked⟩] at count lost
      exact ⟨count, lost⟩
    · apply State.eq_of_fields <;> simp [clearStatus]

end Sys2Proof.Proofs
end

section
/-! PROOFS. The snooped control words (O45). -/

namespace Sys2Proof.Proofs

open Sys2Proof Sys2Proof.Machine Sys2Proof.Laws

/-! ### The notice ring (R163, R164, R167) -/

theorem ringRoom_iff (s : State) : s.ringRoom = true ↔
    (s.notice.producer + 1) % s.plan.ringSize ≠ s.notice.consumer := by
  simp [State.ringRoom]

/-- Where one of the conditions of R163 fails nothing is begun. -/
theorem noticePump_of_blocked {s : State} (blocked : s.notice.ringFault = true ∨
    (s.notice.producer + 1) % s.plan.ringSize = s.notice.consumer ∨ s.notice.fifo = [] ∨
    s.notice.writing ≠ none) : noticePump s = s := by
  refine if_neg fun due => ?_
  simp only [State.noticeDue, State.ringRoom, Bool.and_eq_true, Bool.not_eq_true', bne_iff_ne,
    List.isEmpty_eq_false_iff, Option.isNone_iff_eq_none] at due
  obtain ⟨⟨⟨⟨-, sound⟩, room⟩, queued⟩, idle⟩ := due
  rcases blocked with faulted | full | empty | writing
  · simp [sound] at faulted
  · exact room full
  · exact queued empty
  · exact writing idle

/-- The entry that begins takes the notice unit's write in progress, and no other register. -/
theorem noticePump_begins {s : State} {l : Layout} {h : Notice} {rest : List Notice}
    (layout : s.plan.layout = some l) (sound : s.notice.ringFault = false)
    (room : (s.notice.producer + 1) % s.plan.ringSize ≠ s.notice.consumer)
    (queued : s.notice.fifo = h :: rest) (idle : s.notice.writing = none) :
    (noticePump s).notice = { s.notice with writing := some 0 } ∧
      (noticePump s).noticeReq = ⟨some ⟨.noticeWord, ⟨BitVec.ofNat 32
        (l.noticeBase + 16 * s.notice.producer), .write (h.word 0) 0xF#4⟩⟩, 0⟩ := by
  have size : s.plan.ringSize = l.noticeSize := by rw [Plan.ringSize, layout]
  obtain ⟨writing, request⟩ := noticePump_began layout sound (size ▸ room) idle queued
  refine ⟨?_, request⟩
  rw [← writing]
  exact congrArg (fun n : NoticeUnit => { n with writing := (noticePump s).notice.writing })
    (noticePump_notice s)

theorem attnAtConsumer_eq (s : State) : attnAtConsumer s = { s with notice := { s.notice with
    attn := if s.notice.mode = .level then s.levelAttn else false
    armed := if s.notice.mode = .level then s.notice.armed else true } } := by
  unfold attnAtConsumer
  cases mode : s.notice.mode <;> rfl

/-- The notice unit once it has taken the consumer index `i` (R164, R167, R168). -/
def withConsumer (i : Nat) (s : State) : State :=
  { s with notice := { s.notice with
      consumer := i
      attn := if s.notice.mode = .level then s.notice.producer != i else false
      armed := if s.notice.mode = .level then s.notice.armed else true } }

theorem layout_of_index {s : State} {i : Nat} (below : i < s.plan.ringSize) :
    ∃ l, s.plan.layout = some l ∧ s.plan.ringSize = l.noticeSize := by
  unfold Plan.ringSize at below ⊢
  cases layout : s.plan.layout with
  | none =>
    rw [layout] at below
    exact absurd below (Nat.not_lt_zero _)
  | some l => exact ⟨l, rfl, rfl⟩

theorem consumerSnoop_of_valid {s : State} {data : Word} (below : data.toNat < s.plan.ringSize) :
    consumerSnoop data 0xF#4 s = noticePump (stopIfFull (withConsumer data.toNat s)) := by
  obtain ⟨l, layout, -⟩ := layout_of_index below
  have evaluated : attnAtConsumer { s with notice := { s.notice with consumer := data.toNat } } =
      withConsumer data.toNat s := by
    rw [attnAtConsumer_eq, withConsumer, State.levelAttn, layout]
    rfl
  rw [consumerSnoop, if_pos ⟨rfl, below⟩, evaluated]

theorem consumerSnoop_of_invalid {s : State} {data : Word} {e : Enables}
    (invalid : e ≠ 0xF#4 ∨ s.plan.ringSize ≤ data.toNat) :
    consumerSnoop data e s = { s with notice := { s.notice with badIndex := true } } :=
  if_neg fun ⟨full, below⟩ =>
    invalid.elim (fun partly => partly ((fullWrite_iff e).1 full)) fun outside =>
      absurd below (Nat.not_lt.2 outside)

theorem stopIfFull_of_stopped {s : State} (writing : s.notice.writing ≠ none)
    (full : (s.notice.producer + 1) % s.plan.ringSize = s.notice.consumer) :
    stopIfFull s = abandonNoticeWrite s := by
  have room : s.ringRoom = false := by simp [State.ringRoom, full]
  rw [stopIfFull_eq, if_pos ⟨room, writing⟩]

theorem stopIfFull_of_running {s : State} (runs : s.notice.writing = none ∨
    (s.notice.producer + 1) % s.plan.ringSize ≠ s.notice.consumer) : stopIfFull s = s := by
  rw [stopIfFull_eq]
  refine if_neg fun ⟨full, writing⟩ => ?_
  rcases runs with idle | room
  · exact writing idle
  · rw [(ringRoom_iff s).2 room] at full
    exact absurd full nofun

theorem abandonedBy_notice (g : Granted) : g.abandonedBy .notice =
    if g.job = .noticeWord then { g with abandoned := true } else g := by
  unfold Granted.abandonedBy
  cases job : g.job <;> simp [Job.requester]

theorem ringSize_eq (s : State) : s.plan.ringSize = (s.plan.layout.map Layout.noticeSize).getD 0 := by
  unfold Plan.ringSize
  cases s.plan.layout <;> rfl

theorem noticeConsumerIndex_of_released {s : State} (released : s.resetLow = false) (data : Word)
    (e : Enables) : noticeConsumerIndex data e s = consumerSnoop data e s := if_neg (by simp [released])

theorem chainBasePointer_of_released {s : State} (released : s.resetLow = false) (data : Word)
    (e : Enables) : chainBasePointer data e s =
      if e = 0xF#4 then { s with chain := { s.chain with base := data } } else s := by
  simp only [chainBasePointer, released, Bool.not_false, Bool.true_and, fullWrite_iff]

theorem chainLastPointer_of_released {s : State} (released : s.resetLow = false) (data : Word)
    (e : Enables) : chainLastPointer data e s = if e = 0xF#4 then lastPointerWritten data s else s := by
  simp only [chainLastPointer, released, Bool.not_false, Bool.true_and, fullWrite_iff]

/-- A valid consumer write, by the room of the ring and the write in progress (R164). -/
theorem consumerSnoop_units {s : State} {data : Word} (below : data.toNat < s.plan.ringSize) :
    (∀ l h rest, s.plan.layout = some l → s.notice.ringFault = false →
      (s.notice.producer + 1) % s.plan.ringSize ≠ data.toNat → s.notice.fifo = h :: rest →
      s.notice.writing = none →
      (consumerSnoop data 0xF#4 s).notice =
        { (withConsumer data.toNat s).notice with writing := some 0 } ∧
      (consumerSnoop data 0xF#4 s).noticeReq = ⟨some ⟨.noticeWord, ⟨BitVec.ofNat 32
        (l.noticeBase + 16 * s.notice.producer), .write (h.word 0) 0xF#4⟩⟩, 0⟩ ∧
      (consumerSnoop data 0xF#4 s).port = s.port) ∧
    (s.notice.writing ≠ none → (s.notice.producer + 1) % s.plan.ringSize = data.toNat →
      consumerSnoop data 0xF#4 s = abandonNoticeWrite (withConsumer data.toNat s)) ∧
    (s.notice.writing = none ∨ (s.notice.producer + 1) % s.plan.ringSize ≠ data.toNat →
      s.notice.ringFault = true ∨ (s.notice.producer + 1) % s.plan.ringSize = data.toNat ∨
        s.notice.fifo = [] ∨ s.notice.writing ≠ none →
      consumerSnoop data 0xF#4 s = withConsumer data.toNat s) := by
  rw [consumerSnoop_of_valid below]
  refine ⟨fun l h rest layout sound room queued idle => ?_, fun writing full => ?_,
    fun runs blocked => ?_⟩
  · rw [stopIfFull_of_running (s := withConsumer data.toNat s) (.inl idle)]
    obtain ⟨notice, request⟩ :=
      noticePump_begins (s := withConsumer data.toNat s) layout sound room queued idle
    exact ⟨notice, request, by simp [withConsumer]⟩
  · rw [stopIfFull_of_stopped (s := withConsumer data.toNat s) writing full]
    exact noticePump_of_blocked (.inr (.inl full))
  · rw [stopIfFull_of_running (s := withConsumer data.toNat s) runs]
    exact noticePump_of_blocked blocked

/-- Settles O45: the three control words, by their enables and what they carry. -/
theorem snoopedWordsTaken : Obligations.SnoopedWordsTaken := by
  refine ⟨ringSize_eq, fun s data e released => ⟨fun full below => ?_, fun invalid => ?_, ?_,
    fun partly => ?_, fun full stays => ?_, fun full held mode other => ?_⟩⟩
  · subst full
    obtain ⟨begins, stops, stands⟩ := consumerSnoop_units below
    refine ⟨_, exec_of_effect (noticeConsumerIndex_of_released released data 0xF#4), ?_, ?_⟩
    · rintro n rfl
      refine ⟨begins, fun writing full => ?_, fun runs blocked => ?_⟩
      · rw [stops writing full]
        refine ⟨rfl, rfl, ?_⟩
        rw [← funext abandonedBy_notice]
        rfl
      · rw [stands runs blocked]
        exact ⟨rfl, rfl, rfl⟩
    · apply State.eq_of_fields <;> simp
  · refine exec_of_effect ((noticeConsumerIndex_of_released released data e).trans ?_)
    exact consumerSnoop_of_invalid invalid
  · exact exec_of_effect (chainBasePointer_of_released released data e)
  · exact exec_of_effect ((chainLastPointer_of_released released data e).trans (if_neg partly))
  · refine exec_of_effect ((chainLastPointer_of_released released data e).trans ?_)
    exact (if_pos full).trans (if_neg stays)
  · refine exec_of_effect ((chainLastPointer_of_released released data e).trans ?_)
    exact (if_pos full).trans (if_pos ⟨held, mode, other⟩)

end Sys2Proof.Proofs
end

section
/-! PROOFS. The words of the notice ring (O46). -/

namespace Sys2Proof.Proofs

open Sys2Proof Sys2Proof.Machine Sys2Proof.Laws

/-! ### Memory's answers to a notice word (R163, R165, R166) -/

theorem noticeWord_fields (n : Notice) :
    n.word 0 = field n.kind.code 0 ||| field n.kind.class.code 8 ||| field n.source.toNat 16 |||
      field n.result.toNat 24 ||| field n.cause.toNat 28 ∧
    n.word 1 = n.arg16.setWidth 32 ∧ n.word 2 = n.arg32 ∧ n.word 3 = n.position.setWidth 32 :=
  ⟨rfl, field_toNat _ (by decide), rfl, field_toNat _ (by decide)⟩

theorem noticeWordWriteDone_of_abandoned {s : State} {a : MemAccess}
    (port : s.port = some ⟨.noticeWord, a, true⟩) (answer : WriteAnswer) :
    noticeWordWriteDone answer s = freePort s := by
  simp [noticeWordWriteDone, port]

theorem noticeWordWriteDone_ok {s : State} {a : MemAccess}
    (port : s.port = some ⟨.noticeWord, a, false⟩) :
    noticeWordWriteDone .ok s = noticeWordAccepted (freePort s) := by
  simp [noticeWordWriteDone, port]

theorem noticeWordWriteDone_error {s : State} {a : MemAccess}
    (port : s.port = some ⟨.noticeWord, a, false⟩) :
    noticeWordWriteDone .error s = faultRing a.addr (freePort s) := by
  simp [noticeWordWriteDone, port]

theorem presentNoticeWord_eq {s : State} {l : Layout} {h : Notice} {rest : List Notice}
    (layout : s.plan.layout = some l) (queued : s.notice.fifo = h :: rest) (k : Fin 4) :
    presentNoticeWord k s = { s with
      notice := { s.notice with writing := some k }
      noticeReq := ⟨some ⟨.noticeWord, ⟨BitVec.ofNat 32
        (l.noticeBase + 16 * s.notice.producer + 4 * k.val), .write (h.word k) 0xF#4⟩⟩, 0⟩ } := by
  unfold presentNoticeWord
  rw [layout, queued]
  rfl

theorem noticeWordAccepted_of_more {s : State} {k : Fin 4} (writing : s.notice.writing = some k)
    (more : k ≠ 3) : noticeWordAccepted s = presentNoticeWord (k + 1) s := by
  rw [noticeWordAccepted, writing]
  exact if_neg more

/-- The notice unit once its entry is accepted (R163, R167, R168). -/
def withAccepted (s : State) : State :=
  { s with notice := { s.notice with
      fifo := s.notice.fifo.tail, producer := s.nextProducer, writing := none
      attn := if s.notice.mode = .level then
          s.plan.layout.isSome && s.nextProducer != s.notice.consumer
        else s.notice.armed || s.notice.attn
      armed := if s.notice.mode = .level then s.notice.armed else false } }

theorem attnAtEntry_eq (s : State) : attnAtEntry s = { s with notice := { s.notice with
    attn := if s.notice.mode = .level then s.levelAttn else s.notice.armed || s.notice.attn
    armed := if s.notice.mode = .level then s.notice.armed else false } } := by
  obtain ⟨_, _, _, _, _, _, _, _, _, _, _, _, _, _, _, _, _, _, ⟨_, _, _, _, _, _, _, _, _, _, _, mode,
    armed, _⟩⟩ := s
  cases mode <;> cases armed <;> rfl

theorem noticeWordAccepted_of_last {s : State} (writing : s.notice.writing = some 3) :
    noticeWordAccepted s = noticePump (withAccepted s) := by
  have accepted : noticeWordAccepted s = entryAccepted s := by
    rw [noticeWordAccepted, writing]
    rfl
  rw [accepted, entryAccepted, attnAtEntry_eq]
  rfl

theorem faultRing_raised (addr : Word) (s : State) :
    State.Raised { s with notice := { s.notice with
        ringFault := true, memory := true, writing := none } } (faultRing addr s)
      [⟨.ringFault, 0#8, 0#4, 1#4, BitVec.ofNat 16 s.notice.producer, addr, 0#24⟩] :=
  raise_raised _ _

/-- A ring in FAULT presents nothing, so its notice joins the FIFO only. -/
theorem faultRing_noticeReq (addr : Word) (s : State) : (faultRing addr s).noticeReq = s.noticeReq :=
  ((faultRing_raised addr s).stood (.inl fun _ _ => .inl rfl)).2

/-! ### An acceptance and a consumer write in either order (R169) -/

theorem execInTurn_pair (a b : Instr) (s : State) :
    execInTurn [a, b] s = .next (effect b (effect a s)) := by
  simp only [execInTurn, exec_eq]

/-- What an entry's acceptance makes of the ring, whether or not the next entry begins (R163). -/
theorem noticePump_ring (s : State) : (noticePump s).notice.producer = s.notice.producer ∧
    (noticePump s).notice.consumer = s.notice.consumer ∧ (noticePump s).notice.mode = s.notice.mode ∧
    (noticePump s).notice.armed = s.notice.armed ∧ (noticePump s).notice.attn = s.notice.attn := by
  have kept := noticePump_notice s
  exact ⟨(congrArg NoticeUnit.producer kept :), (congrArg NoticeUnit.consumer kept :),
    (congrArg NoticeUnit.mode kept :), (congrArg NoticeUnit.armed kept :), (congrArg NoticeUnit.attn kept :)⟩

/-- What a valid consumer write makes of the ring, whether it stops a write or begins one (R164). -/
theorem consumerSnoop_ring {s : State} {data : Word} (below : data.toNat < s.plan.ringSize) :
    (consumerSnoop data 0xF#4 s).notice.producer = s.notice.producer ∧
      (consumerSnoop data 0xF#4 s).notice.consumer = data.toNat ∧
      (consumerSnoop data 0xF#4 s).notice.attn =
        (s.notice.mode == .level && s.notice.producer != data.toNat) ∧
      (consumerSnoop data 0xF#4 s).notice.armed = (s.notice.mode == .first || s.notice.armed) := by
  have stopped (u : State) : (stopIfFull u).notice = { u.notice with
      writing := (stopIfFull u).notice.writing } := by
    rw [stopIfFull_eq]
    split <;> rfl
  obtain ⟨producer, consumer, mode, armed, attn⟩ := noticePump_ring (stopIfFull (withConsumer data.toNat s))
  rw [consumerSnoop_of_valid below, producer, consumer, armed, attn, stopped]
  refine ⟨rfl, rfl, ?_, ?_⟩
  · cases mode : s.notice.mode <;> simp [withConsumer, mode]
  · cases mode : s.notice.mode <;> simp [withConsumer, mode]

/-- The acceptance comes first: the consumer write then finds the indices as they are (R169). -/
theorem acceptance_then_consumer {s : State} {a : MemAccess} {d : Word} (released : s.resetLow = false)
    (writing : s.notice.writing = some 3) (port : s.port = some ⟨.noticeWord, a, false⟩)
    (below : d.toNat < s.plan.ringSize) :
    ∃ t, execInTurn [.noticeWordWriteDone .ok, .noticeConsumerIndex d 0xF#4] s = .next t ∧
      t.notice.producer = s.nextProducer ∧ t.notice.consumer = d.toNat ∧
      t.notice.attn = (s.notice.mode == .level && s.nextProducer != d.toNat) ∧
      t.notice.armed = (s.notice.mode == .first || s.notice.armed) := by
  have run : effect (.noticeWordWriteDone .ok) s = noticePump (withAccepted (freePort s)) :=
    (noticeWordWriteDone_ok port).trans (noticeWordAccepted_of_last writing)
  obtain ⟨producer, -, mode, armed, -⟩ := noticePump_ring (withAccepted (freePort s))
  have plan : (noticePump (withAccepted (freePort s))).plan = s.plan := by simp [withAccepted, freePort]
  have high : (noticePump (withAccepted (freePort s))).resetLow = false := by
    simpa [withAccepted, freePort] using released
  generalize noticePump (withAccepted (freePort s)) = u at *
  obtain ⟨ring, consumer, attn, arms⟩ := consumerSnoop_ring (s := u) (data := d) (by rw [plan]; exact below)
  refine ⟨effect (.noticeConsumerIndex d 0xF#4) u, by rw [execInTurn_pair, run], ?_⟩
  have taken : effect (.noticeConsumerIndex d 0xF#4) u = consumerSnoop d 0xF#4 u :=
    noticeConsumerIndex_of_released high d 0xF#4
  rw [taken, ring, consumer, attn, arms, producer, mode, armed]
  refine ⟨rfl, rfl, rfl, ?_⟩
  cases mode : s.notice.mode <;> simp [withAccepted, freePort, mode]

/-- The consumer write comes first and leaves room: the entry is accepted behind it (R169). -/
theorem consumer_then_acceptance {s : State} {a : MemAccess} {d : Word} (released : s.resetLow = false)
    (writing : s.notice.writing = some 3) (port : s.port = some ⟨.noticeWord, a, false⟩)
    (below : d.toNat < s.plan.ringSize) (room : d.toNat ≠ s.nextProducer) :
    ∃ t, execInTurn [.noticeConsumerIndex d 0xF#4, .noticeWordWriteDone .ok] s = .next t ∧
      t.notice.producer = s.nextProducer ∧ t.notice.consumer = d.toNat ∧ t.notice.attn = true ∧
      t.notice.armed = (s.notice.mode == .level && s.notice.armed) := by
  have begun : s.notice.writing ≠ none := by simp [writing]
  have taken : effect (.noticeConsumerIndex d 0xF#4) s = withConsumer d.toNat s :=
    (noticeConsumerIndex_of_released released d 0xF#4).trans
      ((consumerSnoop_units below).2.2 (.inr room.symm) (.inr (.inr (.inr begun))))
  have run : effect (.noticeWordWriteDone .ok) (withConsumer d.toNat s) =
      noticePump (withAccepted (freePort (withConsumer d.toNat s))) :=
    (noticeWordWriteDone_ok (s := withConsumer d.toNat s) port).trans (noticeWordAccepted_of_last writing)
  obtain ⟨producer, consumer, -, armed, attn⟩ :=
    noticePump_ring (withAccepted (freePort (withConsumer d.toNat s)))
  obtain ⟨l, layout, -⟩ := layout_of_index below
  refine ⟨_, by rw [execInTurn_pair, taken, run], producer, consumer, ?_, ?_⟩
  · rw [attn]
    cases mode : s.notice.mode with
    | level =>
      simpa [withAccepted, freePort, withConsumer, mode, layout, State.nextProducer] using room.symm
    | first => simp [withAccepted, freePort, withConsumer, mode]
  · rw [armed]
    cases mode : s.notice.mode <;> simp [withAccepted, freePort, withConsumer, mode]

/-- The consumer write comes first and makes the ring full: the entry is abandoned (R164). -/
theorem consumer_abandons_acceptance {s : State} {a : MemAccess} {d : Word}
    (released : s.resetLow = false) (writing : s.notice.writing = some 3)
    (port : s.port = some ⟨.noticeWord, a, false⟩) (below : d.toNat < s.plan.ringSize)
    (full : d.toNat = s.nextProducer) :
    ∃ t, execInTurn [.noticeConsumerIndex d 0xF#4, .noticeWordWriteDone .ok] s = .next t ∧
      t.notice.fifo = s.notice.fifo ∧ t.notice.producer = s.notice.producer ∧
      t.notice.consumer = d.toNat ∧ t.notice.writing = none ∧
      t.noticeReq = ⟨none, 0⟩ ∧ t.port = none := by
  have begun : s.notice.writing ≠ none := by simp [writing]
  have taken : effect (.noticeConsumerIndex d 0xF#4) s = abandonNoticeWrite (withConsumer d.toNat s) :=
    (noticeConsumerIndex_of_released released d 0xF#4).trans
      ((consumerSnoop_units below).2.1 begun full.symm)
  have abandoned : (abandonNoticeWrite (withConsumer d.toNat s)).port = some ⟨.noticeWord, a, true⟩ := by
    rw [(abandonNoticeWrite_written _).2.1]
    exact congrArg (Option.map (Granted.abandonedBy .notice)) port
  refine ⟨freePort (abandonNoticeWrite (withConsumer d.toNat s)), ?_, rfl, rfl, rfl, rfl, rfl, rfl⟩
  rw [execInTurn_pair, taken]
  exact congrArg _ (noticeWordWriteDone_of_abandoned abandoned .ok)

/-- Settles O46: the words of an entry, memory's answers to them, and the two orders of R169. -/
theorem noticeWordsWritten : Obligations.NoticeWordsWritten := by
  refine ⟨fun _ _ => rfl, fun _ _ => rfl, noticeWord_fields, by decide, fun _ _ => rfl,
    fun s a answer port => exec_of_effect (noticeWordWriteDone_of_abandoned port answer),
    fun s a l h rest layout queued => ?_⟩
  have size : s.plan.ringSize = l.noticeSize := by rw [Plan.ringSize, layout]
  have next : s.nextProducer = (s.notice.producer + 1) % l.noticeSize := by
    rw [State.nextProducer, size]
  refine ⟨fun k more writing port => ?_, fun p writing port advanced => ?_, fun port => ?_,
    fun d p released writing port below advanced => ?_⟩
  · refine exec_of_effect ((noticeWordWriteDone_ok port).trans
      ((noticeWordAccepted_of_more (s := freePort s) writing more).trans ?_))
    exact presentNoticeWord_eq (s := freePort s) layout queued (k + 1)
  · rw [← next] at advanced
    subst advanced
    have run := (noticeWordWriteDone_ok port).trans (noticeWordAccepted_of_last writing)
    have accepted : (withAccepted (freePort s)).notice = { s.notice with
        fifo := rest, producer := s.nextProducer, writing := none
        attn := if s.notice.mode = .level then s.nextProducer != s.notice.consumer
          else s.notice.armed || s.notice.attn
        armed := if s.notice.mode = .level then s.notice.armed else false } := by
      rw [withAccepted]
      simp only [freePort, queued, layout]
      rfl
    refine ⟨_, exec_of_effect run, by simp [withAccepted, freePort], ?_, ?_⟩
    · rintro n rfl
      rw [← accepted]
      refine ⟨fun h' rest' left sound room => ?_, fun blocked => ?_⟩
      · exact noticePump_begins (s := withAccepted (freePort s)) layout sound
          (by rw [accepted]; exact size ▸ room) (by rw [accepted]; exact left) rfl
      · rw [noticePump_of_blocked (s := withAccepted (freePort s))]
        · exact ⟨rfl, rfl⟩
        · rw [accepted]
          rcases blocked with empty | faulted | full
          · exact .inr (.inr (.inl empty))
          · exact .inl faulted
          · exact .inr (.inl (size ▸ full))
    · apply State.eq_of_fields <;> simp [withAccepted, freePort]
  · refine ⟨_, exec_of_effect (noticeWordWriteDone_error port), ?_, by simp [freePort], ?_⟩
    · rintro u rfl
      exact (faultRing_raised a.addr (freePort s)).congr_left rfl rfl rfl rfl
    · have request := faultRing_noticeReq a.addr (freePort s)
      apply State.eq_of_fields <;> simp [freePort]
      exact request
  · rw [← next] at advanced
    rw [← size] at below
    subst advanced
    exact ⟨acceptance_then_consumer released writing port below,
      consumer_then_acceptance released writing port below,
      consumer_abandons_acceptance released writing port below⟩

end Sys2Proof.Proofs
end

section
/-! PROOFS. Guarded writes (O47). -/

namespace Sys2Proof.Proofs

open Sys2Proof Sys2Proof.Machine Sys2Proof.Laws

/-! ### The window table and the regions (R2 to R8) -/

theorem inControlArea_iff (s : State) (w : Word) : s.inControlArea w = true ↔
    controlBase s.cb ≤ w.toNat ∧ w.toNat < controlBase s.cb + 4096 := by
  simp [State.inControlArea]

theorem contains_iff (x : Window) (addr : Nat) :
    x.contains addr = true ↔ x.base ≤ addr ∧ addr < x.base + x.length := by
  simp [Window.contains]

theorem layoutWindows_eq (s : State) : s.layoutWindows =
    match s.plan.layout with
    | none => []
    | some l => ⟨.inductionRing, l.inductionBase, 8 * l.inductionCount,
          some (BitVec.ofNat 3 l.inductionMaster)⟩ ::
        ((List.finRange 4).filter l.stationPresent).map (fun st =>
          ⟨.stationRing st, l.stationBase st, 32 * l.stationCount st,
            some (BitVec.ofNat 3 (l.stationMaster st))⟩) ++
        [⟨.gateWindow, l.gateBase, 1024, none⟩, ⟨.noticeRing, l.noticeBase, 16 * l.noticeSize, none⟩] := by
  unfold State.layoutWindows Layout.windows
  rw [allStations_eq]
  cases s.plan.layout <;> rfl

theorem imageCovers_iff (s : State) (w : Word) : s.imageCovers w = true ↔ s.inControlArea w = false ∧
    ∃ x, s.imageWindow = some x ∧ x.contains w.toNat = true := by
  unfold State.imageCovers
  cases s.imageWindow with
  | none => simp
  | some x => simp [and_comm]

/-- The control-area map as R4 and R5 give it. -/
theorem controlRegion_eq (off : Nat) : controlRegion off =
    if off = 0 then .commandWord
    else if off = 4 then .consumerIndex
    else if off = 8 then .basePointer
    else if off = 12 then .lastPointer
    else if 0x100 ≤ off ∧ off < 0x180 then .statusBlock ((off - 0x100) / 4)
    else if 0x200 ≤ off ∧ off < 0x300 then .pocketStatus (Fin.ofNat 64 ((off - 0x200) / 4))
    else if 0x300 ≤ off ∧ off < 0x400 then .pocketBatch (Fin.ofNat 64 ((off - 0x300) / 4))
    else .ordinary := by
  unfold controlRegion
  grind

/-! ### The guards (R9) -/

theorem imageCovers_of_control {s : State} {w : Word} (inside : s.inControlArea w = true) :
    s.imageCovers w = false := by
  rw [← Bool.not_eq_true, imageCovers_iff, inside]
  simp

theorem writeRefusal_of_uncovered {s : State} {w : Word} (uncovered : s.imageCovers w = false)
    (m : MasterNo) : s.writeRefusal w m = s.regionGuard (s.regionOf w) m := by
  simp [State.writeRefusal, uncovered]

theorem wordAligned_mod (addr : Word) : (addr &&& 0xFFFFFFFC#32).toNat % 4 = 0 := by
  have low : (addr &&& 0xFFFFFFFC#32) &&& 3#32 = 0#32 := by
    rw [BitVec.and_assoc]
    simp
  have bits := congrArg BitVec.toNat low
  rw [BitVec.toNat_and] at bits
  exact (Nat.and_two_pow_sub_one_eq_mod _ 2).symm.trans bits

/-- The guards of the control area, by the offset of a word (R9, 2 and 3). -/
theorem regionGuard_control {s : State} {off : Nat} (aligned : off % 4 = 0) (m : MasterNo) :
    s.regionGuard (controlRegion off) m =
      if off < 0x10 then (if m = s.master then none else some .controlWord)
      else if 0x100 ≤ off ∧ off < 0x180 then some .statusOverlay
      else if 0x200 ≤ off ∧ off < 0x400 then some .pocketOverlay
      else none := by
  rw [controlRegion_eq]
  unfold State.regionGuard
  grind

theorem windowGuard_eq (x : Window) (m : MasterNo) : windowGuard x m =
    match x.kind with
    | .inductionRing => if x.owner = some m then none else some .inductionRing
    | .stationRing st => if x.owner = some m then none else some (.stationRing st)
    | .gateWindow => some .gateWindow
    | .noticeRing => some .noticeRing
    | .planImage => some .planImage := by
  unfold windowGuard
  cases x.kind <;> rfl

/-! ### A write at the backplane port (R1, R10) -/

theorem backplaneAccess_of_free {s : State} (released : s.resetLow = false)
    (free : s.backplane.busy = none) (a : Access) :
    backplaneAccess a s = classify { a with addr := wordAligned a.addr } s := by
  simp [backplaneAccess, released, free]

theorem classify_of_blocked {s : State} {a : Access} {data : Word} {e : Enables} {cause : BlockCause}
    (op : a.op = .write data e) (refused : s.writeRefusal a.addr a.master = some cause) :
    classify a s = blockWrite cause a.addr a.master e s := by
  rw [classify, op]
  simp only [refused]

theorem classify_of_admitted {s : State} {a : Access} {data : Word} {e : Enables}
    (op : a.op = .write data e) (admitted : s.writeRefusal a.addr a.master = none) :
    classify a s = forward a (s.regionOf a.addr) s := by
  rw [classify, op]
  simp only [admitted]

theorem blockWrite_units (cause : BlockCause) (w : Word) (m : MasterNo) (e : Enables) (s : State) :
    (blockWrite cause w m e s).backplane = { s.backplane with response := some ⟨m, none⟩ } ∧
      State.Raised { s with notice := { s.notice with guard := true } } (blockWrite cause w m e s)
        [⟨.writeBlocked, m.setWidth 8, 0#4, cause.code,
          BitVec.ofNat 16 (e.toNat + 256 * cause.stationBits), w, 0#24⟩] := by
  refine ⟨by simp [blockWrite, setGuardFlag, respond], ?_⟩
  exact (raise_raised _ (setGuardFlag (respond m none s))).congr_left rfl rfl rfl rfl

/-- Settles O47: the windows and regions, the guard of each, and what a write of either kind does. -/
theorem writesGuarded : Obligations.WritesGuarded := by
  refine ⟨fun _ => rfl, inControlArea_iff, contains_iff, layoutWindows_eq, imageCovers_iff,
    fun s w => ⟨fun off inside at_ => ?_, fun outside => ⟨regionOf_ordinary outside, fun x listed covers
      only => regionOf_window outside listed covers only⟩⟩, by decide, fun st => ⟨rfl, rfl⟩,
    fun s a data e w released free op aligned => ⟨fun cause refused => ?_, fun admitted => ?_,
      fun off inside at_ => ?_, fun covered => if_pos covered, fun outside uncovered =>
        ⟨fun none => ?_, fun x listed covers only => ?_⟩⟩⟩
  · rw [regionOf_control inside at_, controlRegion_eq]
  · subst aligned
    obtain ⟨backplane, raised⟩ := blockWrite_units cause (wordAligned a.addr) a.master e s
    have run := (backplaneAccess_of_free released free a).trans
      (classify_of_blocked (a := { a with addr := wordAligned a.addr }) op refused)
    refine ⟨_, exec_of_effect run, ?_, ?_, ?_⟩
    · rw [← free]
      exact backplane
    · rintro u rfl
      exact raised
    · apply State.eq_of_fields <;> simp
  · subst aligned
    exact exec_of_effect ((backplaneAccess_of_free released free a).trans
      (classify_of_admitted (a := { a with addr := wordAligned a.addr }) op admitted))
  · have mod : off % 4 = 0 := by
      have whole := wordAligned_mod a.addr
      rw [← aligned, at_, controlBase] at whole
      omega
    rw [writeRefusal_of_uncovered (imageCovers_of_control inside), regionOf_control inside at_,
      regionGuard_control mod]
  · rw [writeRefusal_of_uncovered uncovered, regionOf_ordinary outside none]
    rfl
  · rw [writeRefusal_of_uncovered uncovered, regionOf_window outside listed covers only]
    exact windowGuard_eq x a.master

end Sys2Proof.Proofs
end

section
/-! PROOFS. Overlaid reads (O48). -/

namespace Sys2Proof.Proofs

open Sys2Proof Sys2Proof.Machine Sys2Proof.Laws

/-! ### The words that the part answers (10.3) -/

theorem attnMode_field (m : AttnMode) : field m.code 6 = flag (m == .first) 6 := by
  cases m <;> rfl

theorem statusWord_line (s : State) : statusWord s 1 =
    field s.transport.line.code 0 ||| flag s.transport.feedHold 4 |||
      flag s.notice.attn 5 ||| flag (s.notice.mode == .first) 6 |||
      flag (s.transport.line != .running) 8 ||| flag s.transport.occupancy 9 |||
      flag (s.plan.layout.isSome &&
        (s.pocket 0).capacity.any fun c => decide (c ≤ (s.pocket 0).fill)) 10 |||
      field s.master.toNat 16 := by
  have word : statusWord s 1 = field s.transport.line.code 0 ||| flag s.transport.feedHold 4 |||
      flag s.notice.attn 5 ||| field s.notice.mode.code 6 ||| field s.holdConditions 8 |||
      field s.master.toNat 16 := rfl
  have reject : s.holdReject = (s.plan.layout.isSome &&
      (s.pocket 0).capacity.any fun c => decide (c ≤ (s.pocket 0).fill)) := by
    change s.holdReject = (s.plan.layout.isSome &&
      s.pockets[0].capacity.any fun c => decide (c ≤ s.pockets[0].fill))
    unfold State.holdReject
    cases s.plan.layout <;> cases s.pockets[0].capacity <;> rfl
  rw [word, attnMode_field, holdConditions_field, reject]
  simp only [BitVec.or_assoc]

theorem statusWord_states (s : State) : statusWord s 2 =
    field s.plan.state.code 0 ||| flag s.cmd.executing 4 |||
      field (if s.plan.layout = none then 0 else if s.notice.ringFault then 2 else 1) 8 |||
      field s.chain.state.code 16 |||
      field (if s.chain.state = .fault then s.chain.fault.code else 0) 20 := by
  rw [← ringStateCode_eq, ← shownFault_eq]
  rfl

theorem loadCauseCode_eq (c : Option LoadCause) : loadCauseCode c = (c.map LoadCause.code).getD 0 := by
  cases c <;> rfl

theorem statusWord_command (s : State) : statusWord s 4 =
    field s.cmd.last.opcode.toNat 0 ||| field s.cmd.last.result.code 8 |||
      flag s.cmd.last.sweepCancelled 15 |||
      field ((s.cmd.last.loadCause.map LoadCause.code).getD 0) 16 := by
  rw [← loadCauseCode_eq]
  rfl

theorem pocketStatusWord_eq (x : Pocket) : pocketStatusWord x =
    field x.state.code 0 ||| flag (x.state == .draining .disabled) 2 |||
      field x.inFlight 8 ||| field x.fill 16 := by
  rw [pocketStatusWord, targetCode_field]

/-- The word of a peek, by the state of the letter in the slot (R116). -/
theorem peekWord_eq (slot : BitVec 8) (l : Option Letter) : peekWord slot l =
    match l.map Letter.state with
    | some (.decided d) => ⟨true, d.final.val, d.cause, d.viaPartner, false, false, false, false, slot⟩
    | some .collecting => ⟨false, 0, .none, false, false, true, false, false, slot⟩
    | some .awaitPlan => ⟨false, 0, .none, false, false, true, true, false, slot⟩
    | none => ⟨false, 0, .none, false, false, false, false, true, slot⟩ := by
  cases l with
  | none => rfl
  | some l =>
    simp only [peekWord, Option.map_some]
    cases l.state <;> rfl

/-! ### A read at the backplane port (R2, R12, R13) -/

theorem classify_of_overlaid {s : State} {a : Access} {o : Overlay} (op : a.op = .read)
    (overlaid : s.overlay (s.regionOf a.addr) = some o) :
    classify a s = answerOverlay o a.master s := by
  unfold classify
  generalize s.overlay (s.regionOf a.addr) = found at overlaid ⊢
  subst overlaid
  cases access : a.op with
  | write data e => exact absurd (op.symm.trans access) nofun
  | read => rfl

theorem classify_of_unlaid {s : State} {a : Access} (op : a.op = .read)
    (unlaid : s.overlay (s.regionOf a.addr) = none) : classify a s = forward a (s.regionOf a.addr) s := by
  unfold classify
  generalize s.overlay (s.regionOf a.addr) = found at unlaid ⊢
  subst unlaid
  cases access : a.op with
  | write data e => exact absurd (op.symm.trans access) nofun
  | read => rfl

/-- A read that is overlaid is answered by the overlay. -/
theorem read_of_overlaid {s : State} {a : Access} {w : Word} {o : Overlay} (released : s.resetLow = false)
    (free : s.backplane.busy = none) (op : a.op = .read) (aligned : w = a.addr &&& 0xFFFFFFFC#32)
    (overlaid : s.overlay (s.regionOf w) = some o) :
    exec (.backplaneAccess a) s = .next (answerOverlay o a.master s) := by
  subst aligned
  exact exec_of_effect ((backplaneAccess_of_free released free a).trans
    (classify_of_overlaid (a := { a with addr := wordAligned a.addr }) op overlaid))

theorem read_of_unlaid {s : State} {a : Access} {w : Word} (released : s.resetLow = false)
    (free : s.backplane.busy = none) (op : a.op = .read) (aligned : w = a.addr &&& 0xFFFFFFFC#32)
    (unlaid : s.overlay (s.regionOf w) = none) : exec (.backplaneAccess a) s = .next { s with
      backplane := ⟨some ⟨{ a with addr := w }, s.regionOf w, false⟩, none⟩ } := by
  subst aligned
  exact exec_of_effect ((backplaneAccess_of_free released free a).trans
    (classify_of_unlaid (a := { a with addr := wordAligned a.addr }) op unlaid))

theorem respondWord_of_free {s : State} (free : s.backplane.busy = none) (m : MasterNo) (w : Word) :
    respondWord m w s = { s with backplane := ⟨none, some ⟨m, some (some w)⟩⟩ } := by
  rw [respondWord, ← free]

theorem inControlArea_of_offset {s : State} {w : Word} {off : Nat} (at_ : w.toNat = controlBase s.cb + off)
    (small : off < 4096) : s.inControlArea w = true :=
  (inControlArea_iff s w).2 ⟨by omega, by omega⟩

theorem regionOf_of_offset {s : State} {w : Word} {off : Nat} (at_ : w.toNat = controlBase s.cb + off)
    (small : off < 4096) : s.regionOf w = controlRegion off :=
  regionOf_control (inControlArea_of_offset at_ small) at_

theorem controlRegion_status (k : Fin 32) : controlRegion (0x100 + 4 * k.val) = .statusBlock k.val := by
  revert k
  decide

theorem controlRegion_pocketStatus (p : PocketIx) :
    controlRegion (0x200 + 4 * p.val) = .pocketStatus p := by
  revert p
  decide

theorem controlRegion_pocketBatch (p : PocketIx) : controlRegion (0x300 + 4 * p.val) = .pocketBatch p := by
  revert p
  decide

/-- A read of slot `slot` by another master than the gate master is a peek (R110, R116). -/
theorem gateRead_of_peek {s : State} {slot : BitVec 8} {m : MasterNo} (other : s.gateMaster ≠ some m) :
    gateRead slot m s = respondWord m (peekWord slot (s.letterBySlot slot)).word s := by
  simp [gateRead, gateAnswer, gateEffect, other]

theorem gateDispatch_eq {s : State} {slot : BitVec 8} {m : MasterNo} (released : s.resetLow = false)
    (free : s.backplane.busy = none) (master : s.gateMaster = some m) :
    gateDispatch slot s = gateRead slot m s := by
  simp [gateDispatch, released, free, master]

theorem overlay_of_gate {s : State} {w : Word} {x : Window} {offset : Nat}
    (region : s.regionOf w = .window x offset) (gate : x.kind = .gateWindow) :
    s.overlay (s.regionOf w) = some (.slot (BitVec.ofNat 8 offset)) := by
  rw [region]
  simp [State.overlay, gate]

theorem overlay_of_window {s : State} {x : Window} {offset : Nat} (other : x.kind ≠ .gateWindow) :
    s.overlay (.window x offset) = none := by
  unfold State.overlay
  cases kind : x.kind with
  | gateWindow => exact absurd kind other
  | _ => simp [kind]

/-- Settles O48: the words answered, and a read by the region that holds its word. -/
theorem readsOverlaid : Obligations.ReadsOverlaid := by
  refine ⟨fun _ _ => rfl, fun _ _ => rfl, fun s => ⟨rfl, statusWord_line s, statusWord_states s, rfl,
    statusWord_command s, rfl, rfl, rfl, rfl, rfl, rfl, rfl, rfl, statusWord_station s,
    fun k => statusWord_reserved s⟩, fun x => ⟨pocketStatusWord_eq x, rfl⟩, fun g => rfl, by decide, by decide,
    by decide, by decide, by decide, by decide, by decide, fun s a w released free op aligned =>
    ⟨fun k at_ => ?_, fun p at_ => ?_, fun p at_ => ?_, fun x offset region gate =>
      ⟨fun master => ?_, fun other => ?_⟩, fun plain => ?_⟩⟩
  · rw [Nat.add_assoc] at at_
    have region := (regionOf_of_offset at_ (by omega)).trans (controlRegion_status k)
    rw [read_of_overlaid released free op aligned (by rw [region]; rfl), answerOverlay,
      respondWord_of_free free]
  · rw [Nat.add_assoc] at at_
    have region := (regionOf_of_offset at_ (by omega)).trans (controlRegion_pocketStatus p)
    rw [read_of_overlaid released free op aligned (by rw [region]; rfl), answerOverlay,
      respondWord_of_free free]
  · rw [Nat.add_assoc] at at_
    have region := (regionOf_of_offset at_ (by omega)).trans (controlRegion_pocketBatch p)
    rw [read_of_overlaid released free op aligned (by rw [region]; rfl), answerOverlay,
      respondWord_of_free free]
  · rw [read_of_overlaid released free op aligned (overlay_of_gate region gate)]
    exact (exec_of_effect (c := .gateDispatch _) (gateDispatch_eq released free master)).symm
  · rw [read_of_overlaid released free op aligned (overlay_of_gate region gate), answerOverlay,
      gateRead_of_peek other, respondWord_of_free free, peekWord_eq] <;> rfl
  · refine read_of_unlaid released free op aligned ?_
    rcases plain with region | region | region | region | region | ⟨x, offset, region, other⟩
    case inr.inr.inr.inr.inr =>
      rw [region]
      exact overlay_of_window other
    all_goals
      rw [region]
      rfl

end Sys2Proof.Proofs
end

section
/-! PROOFS. The arbiter's grant (O49). -/

namespace Sys2Proof.Proofs

open Sys2Proof Sys2Proof.Machine Sys2Proof.Laws

/-! ### Whom a grant goes to (R20) -/

theorem overdue_iff {q : OwnReq} (bound : q.wait ≤ 4) :
    q.overdue = true ↔ q.req.isSome = true ∧ q.wait = 4 := by
  rw [OwnReq.overdue, Bool.and_eq_true, decide_eq_true_eq]
  exact and_congr_right fun _ => ⟨fun least => le_antisymm bound least, fun same => same.ge⟩

theorem passthroughPending_eq_false_iff (s : State) : s.passthroughPending = false ↔
    ∀ f, s.backplane.busy = some f → f.granted = true := by
  unfold State.passthroughPending
  cases s.backplane.busy <;> simp

theorem arbiterGrant_of_held {s : State} (held : s.port.isSome = true) : arbiterGrant s = s :=
  if_pos (by simp [held])

theorem arbiterGrant_of_grantTo {s : State} {r : Requester} (released : s.resetLow = false)
    (free : s.port = none) (to_ : s.grantTo = some r) : arbiterGrant s = grant r s := by
  rw [arbiterGrant, if_neg (by simp [released, free]), to_]

theorem arbiterGrant_of_none {s : State} (released : s.resetLow = false) (free : s.port = none)
    (to_ : s.grantTo = none) : arbiterGrant s = s := by
  rw [arbiterGrant, if_neg (by simp [released, free]), to_]

theorem grantTo_notice {s : State} (wanting : s.noticeReq.req.isSome = true)
    (first : s.noticeReq.overdue = true ∨ (s.chainReq.overdue = false ∧ s.planReq.overdue = false ∧
      s.passthroughPending = false)) : s.grantTo = some .notice := by
  unfold State.grantTo
  rcases first with overdue | ⟨chain, plan, passthrough⟩
  · rw [if_pos overdue]
  · simp [chain, plan, passthrough, wanting]

theorem grantTo_chain {s : State} (wanting : s.chainReq.req.isSome = true)
    (notice : s.noticeReq.overdue = false)
    (first : s.chainReq.overdue = true ∨ (s.noticeReq.req = none ∧ s.planReq.overdue = false ∧
      s.passthroughPending = false)) : s.grantTo = some .chain := by
  unfold State.grantTo
  rcases first with overdue | ⟨none, plan, passthrough⟩
  · simp [notice, overdue]
  · simp [notice, none, plan, passthrough, wanting]

theorem grantTo_plan {s : State} (wanting : s.planReq.req.isSome = true)
    (notice : s.noticeReq.overdue = false) (chain : s.chainReq.overdue = false)
    (first : s.planReq.overdue = true ∨ (s.noticeReq.req = none ∧ s.chainReq.req = none ∧
      s.passthroughPending = false)) : s.grantTo = some .plan := by
  unfold State.grantTo
  rcases first with overdue | ⟨noNotice, noChain, passthrough⟩
  · simp [notice, chain, overdue]
  · simp [notice, chain, noNotice, noChain, passthrough, wanting]

theorem grantTo_passthrough {s : State} (notice : s.noticeReq.overdue = false)
    (chain : s.chainReq.overdue = false) (plan : s.planReq.overdue = false)
    (pending : s.passthroughPending = true) : s.grantTo = some .passthrough := by
  simp [State.grantTo, notice, chain, plan, pending]

theorem grantTo_none {s : State} (notice : s.noticeReq.req = none) (chain : s.chainReq.req = none)
    (plan : s.planReq.req = none) (passthrough : s.passthroughPending = false) : s.grantTo = none := by
  simp [State.grantTo, OwnReq.overdue, notice, chain, plan, passthrough]

theorem passedOver_eq (q : OwnReq) : q.passedOver = ⟨q.req, q.wait + q.req.isSome.toNat⟩ := by
  obtain ⟨req, wait⟩ := q
  cases req <;> rfl

theorem grantPassthrough_of_busy {s : State} {f : Forwarded} (busy : s.backplane.busy = some f) :
    grantPassthrough s = { s with
      port := some ⟨.passthrough f.access.master, ⟨f.access.addr, f.access.op⟩, false⟩
      backplane := { s.backplane with busy := some { f with granted := true } }
      noticeReq := ⟨s.noticeReq.req, s.noticeReq.wait + s.noticeReq.req.isSome.toNat⟩
      chainReq := ⟨s.chainReq.req, s.chainReq.wait + s.chainReq.req.isSome.toNat⟩
      planReq := ⟨s.planReq.req, s.planReq.wait + s.planReq.req.isSome.toNat⟩ } := by
  rw [grantPassthrough, busy, passedOver_eq, passedOver_eq, passedOver_eq]

theorem grant_of_wanted {s : State} :
    (∀ o, s.noticeReq.req = some o → grant .notice s = { s with
      port := some ⟨o.job, o.access, false⟩, noticeReq := ⟨none, 0⟩ }) ∧
    (∀ o, s.chainReq.req = some o → grant .chain s = { s with
      port := some ⟨o.job, o.access, false⟩, chainReq := ⟨none, 0⟩ }) ∧
    (∀ o, s.planReq.req = some o → grant .plan s = { s with
      port := some ⟨o.job, o.access, false⟩, planReq := ⟨none, 0⟩ }) := by
  refine ⟨fun o wanted => ?_, fun o wanted => ?_, fun o wanted => ?_⟩
  all_goals
    rw [grant, wanted]
    rfl

/-- Settles O49: whom the grant goes to, and what it writes. -/
theorem arbiterGrants : Obligations.ArbiterGrants := by
  refine fun s released => ⟨fun held => exec_of_effect (c := .arbiterGrant) (arbiterGrant_of_held held),
    fun due dueIff free noticeWait chainWait planWait => ?_⟩
  have overdue {q : OwnReq} (bound : q.wait ≤ 4) : (due q → q.overdue = true) ∧
      (¬due q → q.overdue = false) := by
    rw [dueIff, ← overdue_iff bound, Bool.not_eq_true]
    exact ⟨id, id⟩
  obtain ⟨noticeDue, noticeUndue⟩ := overdue noticeWait
  obtain ⟨chainDue, chainUndue⟩ := overdue chainWait
  obtain ⟨planDue, planUndue⟩ := overdue planWait
  obtain ⟨notice, chain, plan⟩ := grant_of_wanted (s := s)
  have granted {r : Requester} {t : State} (to_ : s.grantTo = some r) (writes : grant r s = t) :
      exec .arbiterGrant s = .next t :=
    exec_of_effect ((arbiterGrant_of_grantTo released free to_).trans writes)
  refine ⟨fun o wanted first => granted (grantTo_notice (by simp [wanted]) ?_) (notice o wanted),
    fun o wanted noticeIn first => granted (grantTo_chain (by simp [wanted]) (noticeUndue noticeIn) ?_)
      (chain o wanted),
    fun o wanted noticeIn chainIn first => granted (grantTo_plan (by simp [wanted]) (noticeUndue noticeIn)
      (chainUndue chainIn) ?_) (plan o wanted),
    fun f busy ungranted noticeIn chainIn planIn => granted (grantTo_passthrough (noticeUndue noticeIn)
      (chainUndue chainIn) (planUndue planIn) ?_) (grantPassthrough_of_busy busy),
    fun noNotice noChain noPlan idle => exec_of_effect (arbiterGrant_of_none released free
      (grantTo_none noNotice noChain noPlan ((passthroughPending_eq_false_iff s).2 idle)))⟩
  · exact first.imp noticeDue fun ⟨chainIn, planIn, idle⟩ =>
      ⟨chainUndue chainIn, planUndue planIn, (passthroughPending_eq_false_iff s).2 idle⟩
  · exact first.imp chainDue fun ⟨noNotice, planIn, idle⟩ =>
      ⟨noNotice, planUndue planIn, (passthroughPending_eq_false_iff s).2 idle⟩
  · exact first.imp planDue fun ⟨noNotice, noChain, idle⟩ =>
      ⟨noNotice, noChain, (passthroughPending_eq_false_iff s).2 idle⟩
  · simp [State.passthroughPending, busy, ungranted]

end Sys2Proof.Proofs
end

section
/-! PROOFS. The answer to a forwarded access (O50). -/

namespace Sys2Proof.Proofs

open Sys2Proof Sys2Proof.Machine Sys2Proof.Laws

/-! ### The rings in the window table (R6) -/

theorem inductionWindow_of_mem {s : State} {x : Window} (listed : x ∈ s.layoutWindows)
    (kind : x.kind = .inductionRing) :
    ∃ l, s.plan.layout = some l ∧ x.length = 8 * l.inductionCount := by
  unfold State.layoutWindows at listed
  cases layout : s.plan.layout with
  | none => simp [layout] at listed
  | some l =>
    simp only [layout, Layout.windows, List.mem_append, List.mem_cons, List.mem_map, List.not_mem_nil,
      or_false] at listed
    rcases listed with (rfl | ⟨st, -, rfl⟩) | rfl | rfl
    · exact ⟨l, rfl, rfl⟩
    all_goals exact absurd kind nofun

theorem stationWindow_of_mem {s : State} {x : Window} {st : StationIx} (listed : x ∈ s.layoutWindows)
    (kind : x.kind = .stationRing st) : x.length = 32 * s.stationSlots st := by
  unfold State.layoutWindows at listed
  cases layout : s.plan.layout with
  | none => simp [layout] at listed
  | some l =>
    simp only [layout, Layout.windows, List.mem_append, List.mem_cons, List.mem_map, List.not_mem_nil,
      or_false, List.mem_filter] at listed
    rcases listed with (rfl | ⟨st', ⟨-, present⟩, rfl⟩) | rfl | rfl
    · exact absurd kind nofun
    · obtain rfl : st' = st := WindowKind.stationRing.inj kind
      simp [Layout.stationWindow, State.stationSlots, layout, present]
    all_goals exact absurd kind nofun

/-! ### Memory's answers to a forwarded access (R14, R16, R22) -/

theorem passthroughDone_of_granted {s : State} {f : Forwarded} {m : MasterNo} {a : MemAccess}
    (port : s.port = some ⟨.passthrough m, a, false⟩) (busy : s.backplane.busy = some f)
    (answer : MemAnswer) :
    passthroughDone answer s = snoopOf f answer (passBack m a.op answer s) := by
  unfold passthroughDone
  simp only [port, busy]
  rfl

theorem passthroughDone_of_abandoned {s : State} {m : MasterNo} {a : MemAccess}
    (port : s.port = some ⟨.passthrough m, a, true⟩) (answer : MemAnswer) :
    passthroughDone answer s = passBackLate m a.op answer s := by
  unfold passthroughDone
  simp only [port]
  rfl

theorem snoopOf_of_error (f : Forwarded) (s : State) : snoopOf f .error s = s := by
  unfold snoopOf
  cases f.access.op <;> rfl

theorem snoopOf_of_read {f : Forwarded} (op : f.access.op = .read) (answer : MemAnswer) (s : State) :
    snoopOf f answer s = s := by
  unfold snoopOf
  rw [op]

theorem snoopOf_of_write {f : Forwarded} {data : Word} {e : Enables} (op : f.access.op = .write data e)
    (word : Word) (s : State) : snoopOf f (.ok word) s = snoop f.region data e s := by
  unfold snoopOf
  rw [op]

theorem masterAnswer_error (op : BusOp) : masterAnswer op .error = none := rfl

theorem masterAnswer_eq (op : BusOp) (answer : MemAnswer) : masterAnswer op answer =
    match answer, op with
    | .ok word, .read => some (some word)
    | .ok _, .write _ _ => some none
    | .error, _ => none := by
  cases answer <;> cases op <;> rfl

/-! ### The owner of a snooped write (R14, R17) -/

theorem commandSnoop_of_word {data : Word} {c : Command} (word : c.word = data) (u : State) :
    commandSnoop data 0xF#4 u = runCommand c u := by
  have accepted : acceptCommandWord data 0xF#4 = some c :=
    (if_pos rfl).trans ((decodeCommand_eq_some_iff data c).2 word)
  rw [commandSnoop, accepted]

theorem badCommand_eq {u : State} (released : u.resetLow = false) (data : Word) (e : Enables) :
    badCommand data e u = commandSnoop data e u := if_neg (by simp [released])

theorem snoop_of_window {u : State} {x : Window} (listed : x ∈ u.layoutWindows) (offset : Nat)
    (data : Word) (e : Enables) :
    snoop (.window x offset) data e u = windowSnoop x.kind offset data e u := if_pos listed

theorem snoop_of_unlisted {u : State} {x : Window} (unlisted : x ∉ u.layoutWindows) (offset : Nat)
    (data : Word) (e : Enables) : snoop (.window x offset) data e u = u := if_neg unlisted

theorem inductionRingWrite_of_window {u : State} {x : Window} {offset : Nat}
    (released : u.resetLow = false) (listed : x ∈ u.layoutWindows) (inside : 4 * offset < x.length)
    (kind : x.kind = .inductionRing) (data : Word) (e : Enables) :
    inductionRingWrite offset data e u = snoop (.window x offset) data e u := by
  obtain ⟨l, layout, length⟩ := inductionWindow_of_mem listed kind
  rw [inductionRingWrite_of_inside released
    ((inInductionRing_iff u offset).2 ⟨l, layout, by omega⟩), snoop_of_window listed, kind]
  rfl

theorem stationRingWrite_of_window {u : State} {x : Window} {offset : Nat} {st : StationIx}
    (released : u.resetLow = false) (listed : x ∈ u.layoutWindows) (inside : 4 * offset < x.length)
    (kind : x.kind = .stationRing st) (data : Word) (e : Enables) :
    stationRingWrite st offset data e u = snoop (.window x offset) data e u := by
  have length := stationWindow_of_mem listed kind
  rw [stationRingWrite_of_inside released (by omega), snoop_of_window listed, kind]
  rfl

/-- Settles O50: the answer, and the snoop by the region of an accepted write. -/
theorem passthroughAnswered : Obligations.PassthroughAnswered := by
  refine fun s f port portIs => ⟨fun held busy => ⟨?_, fun word op => ?_,
    fun word data e u op released back => ?_⟩, fun answer held => ?_⟩
  · rw [portIs] at held
    refine exec_of_effect (c := .passthroughDone .error) ((passthroughDone_of_granted held busy .error).trans ?_)
    rw [snoopOf_of_error, passBack, masterAnswer_error]
  · rw [portIs] at held
    refine exec_of_effect (c := .passthroughDone (.ok word))
      ((passthroughDone_of_granted held busy (.ok word)).trans ?_)
    rw [snoopOf_of_read op, passBack, op]
    rfl
  · rw [portIs] at held
    have high : u.resetLow = false := by
      rw [back]
      exact released
    have windows : u.layoutWindows = s.layoutWindows := by
      rw [back]
      rfl
    have done : effect (.passthroughDone (.ok word)) s = snoop f.region data e u := by
      have answered : passBack f.access.master f.access.op (.ok word) s = u := by
        rw [back, passBack, op]
        rfl
      refine (passthroughDone_of_granted held busy (.ok word)).trans ?_
      rw [answered, snoopOf_of_write op]
    have same {c : Instr} (owner : effect c u = snoop f.region data e u) :
        exec (.passthroughDone (.ok word)) s = exec c u := by
      rw [exec_eq, exec_eq, done, owner]
    refine ⟨fun c region full spelled => ?_, fun region unspelled => same ?_, fun region => same ?_,
      fun region => same ?_, fun region => same ?_,
      fun x offset region listed inside => ⟨fun kind => same ?_, fun st kind => same ?_⟩, fun plain => ?_⟩
    · rw [exec_eq, done, exec_instr, region, full]
      exact congrArg _ (commandSnoop_of_word spelled u)
    · rw [region]
      exact badCommand_eq high data e
    · rw [region]
      exact noticeConsumerIndex_of_released high data e
    · rw [region]
      rfl
    · rw [region]
      rfl
    · rw [region]
      exact inductionRingWrite_of_window high (windows ▸ listed) inside kind data e
    · rw [region]
      exact stationRingWrite_of_window high (windows ▸ listed) inside kind data e
    · refine exec_of_effect (c := .passthroughDone (.ok word)) (done.trans ?_)
      rcases plain with region | ⟨x, offset, region, unlisted⟩
      · rw [region]
        rfl
      · rw [region]
        exact snoop_of_unlisted (windows ▸ unlisted) offset data e
  · rw [portIs] at held
    refine exec_of_effect (c := .passthroughDone answer) ((passthroughDone_of_abandoned held answer).trans ?_)
    rw [passBackLate, masterAnswer_eq] <;> rfl

end Sys2Proof.Proofs
end

section
/-! PROOFS. The plan loader reads the image (O51). -/

namespace Sys2Proof.Proofs

open Sys2Proof Sys2Proof.Machine Sys2Proof.Laws

/-! ### The answered read (R35, R41) -/

theorem planReadDone_of_granted {s : State} {a : MemAccess}
    (port : s.port = some ⟨.planRead, a, false⟩) (answer : MemAnswer) :
    planReadDone answer s = planAnswer answer (freePort s) := by
  simp [planReadDone, port]

theorem planReadDone_of_abandoned {s : State} {a : MemAccess}
    (port : s.port = some ⟨.planRead, a, true⟩) (answer : MemAnswer) :
    planReadDone answer s = freePort s := by
  simp [planReadDone, port]

/-- The load once its next word has arrived (R35). -/
def withWord (ld : Load) (data : Word) : Load := { ld with words := ld.words ++ [data] }

theorem planReadDone_of_word {s : State} {a : MemAccess} {ld : Load} {data : Word}
    (load : s.plan.load = some ld) (port : s.port = some ⟨.planRead, a, false⟩) :
    planReadDone (.ok data) s =
      if (withWord ld data).words.length < 16 then readPlanWord (withWord ld data) (freePort s)
      else checkBlock (withWord ld data) (freePort s) := by
  have load : (freePort s).plan.load = some ld := load
  rw [planReadDone_of_granted port, planAnswer, load]
  rfl

theorem checkBlock_of_sound {ld : Load} {bs : List Byte} (bytes : bs = wordsBytes ld.words)
    (crc : blockCrcGood bs = true) (sequence : le16At bs 60 = ld.block) (s : State) :
    checkBlock ld s = checkPayload ld bs s := by
  subst bytes
  simp [checkBlock, crc, sequence]

theorem withWord_length {ld : Load} (fifteen : ld.words.length = 15) (data : Word) :
    ¬ (withWord ld data).words.length < 16 := by
  simp [withWord, fifteen]

/-- The sixteenth word of a block with a good CRC and its own number leads to the checks on its payload. -/
theorem planReadDone_of_block {s : State} {a : MemAccess} {ld : Load} {data : Word} {bs : List Byte}
    (load : s.plan.load = some ld) (port : s.port = some ⟨.planRead, a, false⟩)
    (bytes : bs = wordsBytes (ld.words ++ [data])) (fifteen : ld.words.length = 15)
    (crc : blockCrcGood bs = true) (sequence : le16At bs 60 = ld.block) :
    planReadDone (.ok data) s = checkPayload (withWord ld data) bs (freePort s) := by
  rw [planReadDone_of_word load port, if_neg (withWord_length fifteen data)]
  exact checkBlock_of_sound (ld := withWord ld data) bytes crc sequence _

/-! ### The kinds of block (R24, R26) -/

theorem checkPayload_of_layout {ld : Load} (layout : ld.layout = none) (bs : List Byte) (s : State) :
    checkPayload ld bs s = checkLayoutBlock ld bs s := by
  simp [checkPayload, layout]

theorem checkPayload_of_params {ld : Load} {l : Layout} (layout : ld.layout = some l)
    (params : ld.params = none) (bs : List Byte) (s : State) :
    checkPayload ld bs s = checkParamBlock ld l bs s := by
  simp [checkPayload, layout, params]

theorem checkPayload_of_records {ld : Load} {l : Layout} {p : Params} (layout : ld.layout = some l)
    (params : ld.params = some p) (bs : List Byte) (s : State) : checkPayload ld bs s =
      if ld.block < 2 + pocketBlocks l.pocketCount then checkPocketBlock ld l (ld.block - 2) bs s
      else checkRuleBlock ld l p (ld.block - 2 - pocketBlocks l.pocketCount) bs s := by
  simp only [checkPayload, layout, params]

theorem checkLayoutBlock_of_good {ld : Load} {bs : List Byte} {s : State} {changed : Bool}
    (good : firstFailure ((Layout.mk (bs.take 60)).checks s.cb s.master) = none)
    (compared : changed = (s.plan.layout != some ⟨bs.take 60⟩))
    (free : changed = true → s.layoutLocked = false) : checkLayoutBlock ld bs s =
      blockPassed { ld with layout := some ⟨bs.take 60⟩, changed := changed } s := by
  have unlocked : ¬ (changed && s.layoutLocked) = true := by
    cases changed
    · exact nofun
    · simp [free]
  simp only [checkLayoutBlock, good, ← compared, if_neg unlocked]

theorem checkParamBlock_of_good {ld : Load} {l : Layout} {bs : List Byte}
    (good : firstFailure (paramChecks bs l.pocketCount) = none) (s : State) :
    checkParamBlock ld l bs s = blockPassed { ld with params := some (paramsOf bs) } s := by
  rw [checkParamBlock, good]

theorem checkPocketBlock_of_good {ld : Load} {l : Layout} {j : Nat} {bs : List Byte}
    (good : pocketBlockFailure bs j l.pocketCount = none) (s : State) :
    checkPocketBlock ld l j bs s =
      blockPassed { ld with records := ld.records ++ pocketBlockRecords bs j l.pocketCount } s := by
  rw [checkPocketBlock, good]

theorem checkRuleBlock_of_good {ld : Load} {l : Layout} {p : Params} {j : Nat} {bs : List Byte}
    (good : ruleBlockFailure bs j l.pocketCount p.ruleCount = none) (s : State) :
    checkRuleBlock ld l p j bs s = blockPassed { ld with
      rules := ld.rules ++ ruleBlockRules bs j l.pocketCount p.ruleCount } s := by
  rw [checkRuleBlock, good]

theorem coveredBlocks_congr {u v : Load} (layout : u.layout = v.layout) (params : u.params = v.params) :
    u.coveredBlocks = v.coveredBlocks := by
  rw [Load.coveredBlocks, Load.coveredBlocks, layout, params]

/-- After block `n`, which is not known to be the last one, the next is read (R35). -/
theorem blockPassed_of_more {ld u : Load} {n : Nat} (number : ld.block = n)
    (next : u = { ld with block := n + 1, words := [] })
    (more : ld.params = none ∨ n + 1 ≠ u.coveredBlocks) (s : State) :
    blockPassed ld s = readPlanWord u s := by
  have covered : u.coveredBlocks = ld.coveredBlocks := by
    subst next
    exact coveredBlocks_congr rfl rfl
  rw [covered] at more
  subst number next
  unfold blockPassed
  split
  case h_2 => rfl
  case h_1 l p known =>
    refine if_neg fun last => ?_
    rcases more with unknown | more
    · rw [Load.blocksKnown, unknown] at known
      cases layout : ld.layout <;> simp [layout] at known
    · exact more last

/-! ### The fields of the image (10.5) -/

theorem ruleBlockRules_eq {bs : List Byte} {j P N : Nat} (good : ruleBlockFailure bs j P N = none) :
    ruleBlockRules bs j P N =
      ((List.range 5).filter fun i => decide (5 * j + i < N)).map fun i =>
        ⟨match byteAt bs (12 * i) % 8 with
          | 0 => .any
          | 1 => .district
          | 2 => .cycle
          | 3 => .account
          | _ => .mailBatch,
          match byteAt bs (12 * i) / 16 % 4 with
          | 0 => .any
          | 1 => .present
          | _ => .absent,
          Fin.ofNat 64 (byteAt bs (12 * i + 1)), BitVec.ofNat 16 (le16At bs (12 * i + 2)),
          le32At bs (12 * i + 4), le32At bs (12 * i + 8)⟩ := by
  rw [ruleBlockRules, ← List.filterMap_eq_map]
  refine List.filterMap_congr fun i listed => ?_
  obtain ⟨five, used⟩ := List.mem_filter.1 listed
  exact ruleOf_eq (ruleOf_isSome good (List.mem_range.1 five) (of_decide_eq_true used))

theorem coveredBlocks_eq (ld : Load) : ld.coveredBlocks =
    match ld.layout, ld.params with
    | none, _ => 1
    | some l, none => 2 + pocketBlocks l.pocketCount
    | some l, some p => imageBlocks l.pocketCount p.ruleCount := by
  unfold Load.coveredBlocks
  cases ld.layout <;> cases ld.params <;> rfl

theorem layoutLocked_iff (s : State) :
    s.layoutLocked = true ↔ s.transport.line ≠ .stopped ∨ s.transit.letters ≠ [] := by
  simp [State.layoutLocked]

/-! ### LOAD_PLAN (R34) -/

theorem imageAddress_toNat (arg : BitVec 24) : (arg.setWidth 32 <<< 6).toNat = 64 * arg.toNat := by
  have small := arg.isLt
  simp only [BitVec.toNat_shiftLeft, BitVec.toNat_setWidth, Nat.shiftLeft_eq]
  omega

/-- The registers of the part once LOAD_PLAN is taken. -/
theorem acceptLoad_eq (arg : BitVec 24) (s : State) : acceptLoad arg s = { s with
    cmd := { s.cmd with executing := true }
    plan := { s.plan with state := .loading, load := some (Load.begin arg s.sweepOpen), rules := [] }
    sweep := .idle
    planReq := ⟨some ⟨.planRead, ⟨arg.setWidth 32 <<< 6, .read⟩⟩, 0⟩ } := by
  have first : (Load.begin arg s.sweepOpen).wordAddr = arg.setWidth 32 <<< 6 := by
    simp [Load.wordAddr, Load.begin]
  simp only [acceptLoad, readPlanWord, first]
  rfl

theorem loadPlan_accepted {s : State} (ready : s.Ready) (arg : BitVec 24) :
    exec (.loadPlan arg) s = .next (acceptLoad arg s) :=
  ready_exec (c := .loadPlan arg) (whenIdle_of_ready ready _ _)

/-- The next word of a block that is not yet whole (R35). -/
theorem readPlanWord_eq (ld : Load) (s : State) : readPlanWord ld s = { s with
    plan := { s.plan with load := some ld }
    planReq := ⟨some ⟨.planRead, ⟨ld.image +
      BitVec.ofNat 32 (64 * ld.block + 4 * ld.words.length), .read⟩⟩, 0⟩ } := rfl

theorem imageWindow_of_load {s : State} {ld : Load} (load : s.plan.load = some ld) :
    s.imageWindow = some ⟨.planImage, ld.image.toNat, 64 * ld.coveredBlocks, none⟩ := by
  rw [State.imageWindow, load]
  rfl

/-- The block with the bytes `bs` passes and is not the last one, which leaves the load at `u`: block 0, block 1, a pocket block or a rule block (R26 to R31, R35). -/
def BlockPasses (s : State) (ld u : Load) (bs : List Byte) : Prop :=
  (∃ l changed, ld.layout = none ∧ l = Layout.mk (bs.take 60) ∧
    firstFailure (l.checks s.cb s.master) = none ∧
    changed = (s.plan.layout != some l) ∧ (changed = true → s.layoutLocked = false) ∧
    (ld.params = none ∨ ld.block + 1 ≠ u.coveredBlocks) ∧
    u = { ld with block := ld.block + 1, words := [], layout := some l, changed := changed }) ∨
  (∃ l, ld.layout = some l ∧ ld.params = none ∧ ld.block + 1 ≠ u.coveredBlocks ∧
    firstFailure (paramChecks bs l.pocketCount) = none ∧
    u = { ld with block := ld.block + 1, words := [], params := some (paramsOf bs) }) ∨
  (∃ l p, ld.layout = some l ∧ ld.params = some p ∧ ld.block + 1 ≠ ld.coveredBlocks ∧
    ((ld.block < 2 + pocketBlocks l.pocketCount ∧
      pocketBlockFailure bs (ld.block - 2) l.pocketCount = none ∧
      u = { ld with
        block := ld.block + 1, words := []
        records := ld.records ++ pocketBlockRecords bs (ld.block - 2) l.pocketCount }) ∨
     (2 + pocketBlocks l.pocketCount ≤ ld.block ∧
      ruleBlockFailure bs (ld.block - 2 - pocketBlocks l.pocketCount) l.pocketCount
        p.ruleCount = none ∧
      u = { ld with
        block := ld.block + 1, words := []
        rules := ld.rules ++ ruleBlockRules bs
          (ld.block - 2 - pocketBlocks l.pocketCount) l.pocketCount p.ruleCount })))

/-- A block that passes without being the last one has the next block read. -/
theorem checkPayload_reads {s : State} {ld u : Load} {bs : List Byte} (passes : BlockPasses s ld u bs)
    (data : Word) : checkPayload (withWord ld data) bs s = readPlanWord u s := by
  rcases passes with ⟨l, changed, layout, rfl, good, compared, free, more, next⟩ |
    ⟨l, layout, params, more, good, next⟩ | ⟨l, p, layout, params, more, kind⟩
  · rw [checkPayload_of_layout (ld := withWord ld data) layout,
      checkLayoutBlock_of_good good compared free]
    refine blockPassed_of_more (n := ld.block) ?_ ?_ ?_ s
    exacts [rfl, next, more]
  · rw [checkPayload_of_params (ld := withWord ld data) layout params, checkParamBlock_of_good good]
    refine blockPassed_of_more (n := ld.block) ?_ ?_ ?_ s
    exacts [rfl, next, .inr more]
  · rw [checkPayload_of_records (ld := withWord ld data) layout params,
      show (withWord ld data).block = ld.block from rfl]
    have covered {v : Load} (next : u = v) (layout : v.layout = ld.layout)
        (params : v.params = ld.params) : ld.block + 1 ≠ u.coveredBlocks := by
      rw [next, coveredBlocks_congr layout params]
      exact more
    rcases kind with ⟨below, good, next⟩ | ⟨above, good, next⟩
    · rw [if_pos below, checkPocketBlock_of_good good]
      refine blockPassed_of_more (n := ld.block) ?_ ?_ ?_ s
      exacts [rfl, next, .inr (covered next rfl rfl)]
    · rw [if_neg (Nat.not_lt.2 above), checkRuleBlock_of_good good]
      refine blockPassed_of_more (n := ld.block) ?_ ?_ ?_ s
      exacts [rfl, next, .inr (covered next rfl rfl)]

theorem BlockPasses.next {s : State} {ld u : Load} {bs : List Byte} (passes : BlockPasses s ld u bs) :
    u.block = ld.block + 1 ∧ u.image = ld.image ∧ u.words = [] := by
  rcases passes with ⟨_, _, _, _, _, _, _, _, rfl⟩ | ⟨_, _, _, _, _, rfl⟩ |
    ⟨_, _, _, _, _, ⟨_, _, rfl⟩ | ⟨_, _, rfl⟩⟩
  all_goals exact ⟨rfl, rfl, rfl⟩

/-- Settles O51: the fields of the image, LOAD_PLAN's acceptance, and the loader's reads by the word that arrives. -/
theorem planWordsRead : Obligations.PlanWordsRead := by
  refine ⟨?_, fun _ => rfl, pocketBlockRecords_eq, fun _ _ _ _ => ruleBlockRules_eq, fun P N => ?_,
    coveredBlocks_eq, fun _ => rfl, layoutLocked_iff, fun s arg ready => ?_,
    fun s a ld data load port => ⟨?_, ?_⟩, fun s a answer port => ?_⟩
  · rintro bs l rfl
    exact ⟨rfl, rfl, rfl, rfl, rfl, rfl, rfl, rfl, rfl, rfl, rfl, rfl,
      fun st => ⟨rfl, rfl, rfl, stationPresent_iff ⟨bs⟩ st⟩⟩
  · obtain ⟨pockets, pocketsTight, rules, rulesTight⟩ := blocks_bounds P N
    exact ⟨pockets, pocketsTight, rules, rulesTight, rfl⟩
  · refine ⟨acceptLoad arg s, Load.begin arg s.sweepOpen, loadPlan_accepted ready arg,
      imageAddress_toNat arg, rfl, rfl, rfl, rfl, rfl, rfl, rfl, rfl, ?_⟩
    rw [acceptLoad_eq]
    refine ⟨rfl, ?_, rfl, rfl, rfl, rfl⟩
    rw [imageWindow_of_load rfl, ← imageAddress_toNat arg]
    rfl
  · rintro u rfl short
    exact exec_of_effect (c := .planReadDone _)
      ((planReadDone_of_word load port).trans (if_pos short))
  · intro bs u bytes fifteen crc sequence passes
    have passes : BlockPasses (freePort s) ld u bs := passes
    obtain ⟨block, image, words⟩ := passes.next
    have run : planReadDone (.ok data) s = readPlanWord u (freePort s) :=
      (planReadDone_of_block load port bytes fifteen crc sequence).trans
        (checkPayload_reads passes data)
    refine ⟨_, exec_of_effect (c := .planReadDone _) run, ?_, ?_⟩
    · rw [readPlanWord_eq, block, image, words]
      rfl
    · rw [readPlanWord_eq, imageWindow_of_load (ld := u) rfl, image]
  · exact exec_of_effect (c := .planReadDone _) (planReadDone_of_abandoned port answer)

end Sys2Proof.Proofs
end

section
/-! PROOFS. The conditions on a plan image, as the loader tests them (R27, R29, R30, R31; 10.5). -/

namespace Sys2Proof.Proofs

open Sys2Proof Sys2Proof.Machine Sys2Proof.Laws

/-! ### The first condition that fails -/

theorem firstFailure_cons (c : HeaderField × Bool) (cs : List (HeaderField × Bool)) :
    firstFailure (c :: cs) = if c.2 = true then firstFailure cs else some c.1 := by
  unfold firstFailure
  cases good : c.2 <;> simp [good]

theorem firstFailure_eq_none_iff {holds : HeaderField → Prop} {checks : List (HeaderField × Bool)}
    (meaning : ∀ c ∈ checks, c.2 = true ↔ holds c.1) :
    firstFailure checks = none ↔ ∀ f ∈ checks.map Prod.fst, holds f := by
  simp only [firstFailure, Option.map_eq_none_iff, List.find?_eq_none, Bool.not_eq_true',
    Bool.not_eq_false, List.forall_mem_map]
  exact forall₂_congr meaning

/-- In a table ordered by field code the failure that is reported is the one with the least code. -/
theorem firstFailure_eq_some_iff {holds : HeaderField → Prop} {checks : List (HeaderField × Bool)}
    (meaning : ∀ c ∈ checks, c.2 = true ↔ holds c.1)
    (ordered : (checks.map Prod.fst).Pairwise fun f g => f.code < g.code) (f : HeaderField) :
    firstFailure checks = some f ↔ f ∈ checks.map Prod.fst ∧ ¬ holds f ∧
      ∀ g ∈ checks.map Prod.fst, g.code < f.code → holds g := by
  induction checks with
  | nil => simp [firstFailure]
  | cons c cs ih =>
    obtain ⟨own, later⟩ := List.forall_mem_cons.1 meaning
    obtain ⟨first, ordered⟩ := List.pairwise_cons.1 ordered
    rw [firstFailure_cons, List.map_cons, List.forall_mem_cons, List.mem_cons]
    by_cases good : c.2 = true
    · rw [if_pos good, ih later ordered]
      have held := own.1 good
      constructor
      · rintro ⟨listed, fails, before⟩
        exact ⟨.inr listed, fails, fun _ => held, before⟩
      · rintro ⟨rfl | listed, fails, -, before⟩
        · exact absurd held fails
        · exact ⟨listed, fails, before⟩
    · rw [if_neg good, Option.some_inj]
      have fails := mt own.2 good
      constructor
      · rintro rfl
        exact ⟨.inl rfl, fails, fun less => absurd less (Nat.lt_irrefl _),
          fun g listed less => absurd less (Nat.lt_asymm (first g listed))⟩
      · rintro ⟨rfl | listed, -, before, -⟩
        · rfl
        · exact absurd (before (first f listed)) fails

/-! ### Bytes of a block -/

theorem byteAt_take {n k : Nat} (bs : List Byte) (h : k < n) : byteAt (bs.take n) k = byteAt bs k := by
  simpa using byteAt_slice bs 0 h

theorem le16At_take {n k : Nat} (bs : List Byte) (h : k + 1 < n) :
    le16At (bs.take n) k = le16At bs k := by
  rw [le16At, le16At, byteAt_take bs (by omega), byteAt_take bs h]

theorem le32At_take {n k : Nat} (bs : List Byte) (h : k + 3 < n) :
    le32At (bs.take n) k = le32At bs k := by
  rw [le32At, le32At, le16At_take bs (by omega), le16At_take bs (by omega)]

theorem zeroBytes_iff (bs : List Byte) (i n : Nat) :
    zeroBytes bs i n = true ↔ ∀ k < n, byteAt bs (i + k) = 0 := by
  rw [zeroBytes, List.all_eq_true]
  constructor
  · intro zero k below
    rw [← byteAt_slice bs i below, byteAt, List.getD_eq_getElem?_getD]
    cases present : ((bs.drop i).take n)[k]? with
    | none => rfl
    | some b =>
      have zero : b = 0#8 := by simpa using zero b (List.mem_of_getElem? present)
      rw [Option.getD_some, zero]
      rfl
  · intro zero b listed
    obtain ⟨k, below, rfl⟩ := List.getElem_of_mem listed
    have inside : k < n := Nat.lt_of_lt_of_le below (List.length_take_le _ _)
    have zero := zero k inside
    rw [← byteAt_slice bs i inside, byteAt, List.getD_eq_getElem _ _ below] at zero
    simpa using BitVec.eq_of_toNat_eq (y := 0#8) zero

/-! ### Block 0 (R27) -/

theorem stationField_take (bs : List Byte) (st : StationIx) :
    (Layout.mk (bs.take 60)).stationField st = stationFieldAt bs st :=
  le16At_take bs (by omega)

theorem stationBase_take (bs : List Byte) (st : StationIx) :
    (Layout.mk (bs.take 60)).stationBase st = le32At bs (20 + 6 * st.val) :=
  le32At_take bs (by omega)

theorem stationPresent_take (bs : List Byte) (st : StationIx) :
    (Layout.mk (bs.take 60)).stationPresent st = decide (32768 ≤ stationFieldAt bs st) := by
  rw [Bool.eq_iff_iff, decide_eq_true_iff, stationPresent_iff]
  exact iff_of_eq (congrArg (32768 ≤ ·) (stationField_take bs st))

theorem presentStations_take (bs : List Byte) :
    allStations.filter (Layout.mk (bs.take 60)).stationPresent = presentStations bs :=
  List.filter_congr fun st _ => stationPresent_take bs st

theorem stationGood_iff (bs : List Byte) (cb : BitVec 4) (cm : MasterNo) (P : Nat) (st : StationIx) :
    (Layout.mk (bs.take 60)).stationGood st = true ↔ (HeaderField.station st).Holds bs cb cm P := by
  have master : stationFieldAt bs st / 512 % 8 ≤ 7 := by omega
  simp only [Layout.stationGood, HeaderField.Holds, stationPresent_take, Layout.stationCount,
    Layout.stationMaster, stationField_take, stationBase_take, decide_eq_true_iff]
  split <;> simp [master, and_assoc]

/-- First address and length of a window. -/
def extentOf (w : Window) : Nat × Nat := (w.base, w.length)

theorem imageWindows_eq (bs : List Byte) :
    (Layout.mk (bs.take 60)).windows.map extentOf = imageWindows bs := by
  have station : extentOf ∘ (Layout.mk (bs.take 60)).stationWindow =
      fun st => (le32At bs (20 + 6 * st.val), 32 * (stationFieldAt bs st % 512)) :=
    funext fun st => by
      simp [extentOf, Layout.stationWindow, stationBase_take, Layout.stationCount, stationField_take]
  simp only [Layout.windows, List.map_append, List.map_map, station, presentStations_take, imageWindows]
  simp [extentOf, Layout.inductionWindow, Layout.gateWindow, Layout.noticeWindow,
    Layout.inductionBase, Layout.inductionCount, Layout.gateBase, Layout.noticeBase, Layout.noticeSize,
    le32At_take, le16At_take]

/-- Two extents share no address. -/
def Apart (a b : Nat × Nat) : Prop := a.1 + a.2 ≤ b.1 ∨ b.1 + b.2 ≤ a.1

theorem disjoint_iff (v w : Window) : v.disjoint w = true ↔ Apart (extentOf v) (extentOf w) := by
  simp [Window.disjoint, Apart, extentOf]

theorem clearsControl_iff (w : Window) (cb : BitVec 4) :
    w.clearsControl cb = true ↔ Apart (cb.toNat * 2 ^ 28, 4096) (extentOf w) := by
  rw [Window.clearsControl, Bool.or_eq_true, decide_eq_true_iff, decide_eq_true_iff]
  exact or_comm

theorem windowsDisjoint_iff (ws : List Window) :
    windowsDisjoint ws = true ↔ (ws.map extentOf).Pairwise Apart := by
  induction ws with
  | nil => simp [windowsDisjoint]
  | cons w ws ih => simp [windowsDisjoint, ih, disjoint_iff]

theorem overlap_iff (bs : List Byte) (cb : BitVec 4) (cm : MasterNo) (P : Nat) :
    (windowsDisjoint (Layout.mk (bs.take 60)).windows &&
      (Layout.mk (bs.take 60)).windows.all (·.clearsControl cb)) = true ↔
    HeaderField.overlap.Holds bs cb cm P := by
  have clear : (Layout.mk (bs.take 60)).windows.all (·.clearsControl cb) = true ↔
      ∀ w ∈ imageWindows bs, Apart (cb.toNat * 2 ^ 28, 4096) w := by
    rw [← imageWindows_eq, List.forall_mem_map, List.all_eq_true]
    exact forall₂_congr fun w _ => clearsControl_iff w cb
  rw [Bool.and_eq_true, windowsDisjoint_iff, imageWindows_eq, clear, and_comm]
  exact List.pairwise_cons.symm

theorem extent_iff (bs : List Byte) (cb : BitVec 4) (cm : MasterNo) (P : Nat) :
    (Layout.mk (bs.take 60)).windows.all (fun w => decide (w.base + w.length ≤ 2 ^ 32)) = true ↔
    HeaderField.extent.Holds bs cb cm P := by
  rw [HeaderField.Holds, ← imageWindows_eq, List.forall_mem_map, List.all_eq_true]
  exact forall₂_congr fun w _ => decide_eq_true_iff

theorem masters_iff (bs : List Byte) (cb : BitVec 4) (cm : MasterNo) (P : Nat) :
    ((Layout.mk (bs.take 60)).masters cm).Nodup ↔ HeaderField.masters.Holds bs cb cm P := by
  have station : (Layout.mk (bs.take 60)).stationMaster = fun st => stationFieldAt bs st / 512 % 8 :=
    funext fun st => by rw [Layout.stationMaster, stationField_take]
  simp only [Layout.masters, HeaderField.Holds, presentStations_take, station, Layout.inductionMaster,
    Layout.gateMaster, byteAt_take bs (show 6 < 60 by decide), byteAt_take bs (show 7 < 60 by decide)]
  refine List.Perm.nodup_iff ?_
  rw [List.append_assoc]
  exact (List.perm_append_comm.append_left [_, _])

theorem reserved_iff (bs : List Byte) (cb : BitVec 4) (cm : MasterNo) (P : Nat) :
    (zeroBytes (bs.take 60) 15 1 && zeroBytes (bs.take 60) 56 4 &&
      allStations.all (fun st => decide ((Layout.mk (bs.take 60)).stationReserved st = 0))) = true ↔
    HeaderField.reserved.Holds bs cb cm P := by
  have every : ∀ p : StationIx → Bool, allStations.all p = true ↔ ∀ st, p st = true := fun p => by
    rw [List.all_eq_true]
    exact ⟨fun all st => all st (List.mem_finRange st), fun all st _ => all st⟩
  have tail : (∀ k < 4, byteAt (bs.take 60) (56 + k) = 0) ↔ ∀ k < 4, byteAt bs (56 + k) = 0 :=
    forall₂_congr fun k below => by rw [byteAt_take bs (by omega)]
  have single : (∀ k < 1, byteAt (bs.take 60) (15 + k) = 0) ↔ byteAt bs 15 = 0 := by
    simp [byteAt_take]
  simp only [Bool.and_eq_true, every, zeroBytes_iff, tail, single, HeaderField.Holds, and_assoc,
    Layout.stationReserved, stationField_take, decide_eq_true_iff]

/-- The fields of block 0 and of block 1 in the order of their codes. -/
def layoutFields : List HeaderField :=
  [.magic, .version, .pocketCount, .inductionRing, .gateWindow, .station 0, .station 1, .station 2,
    .station 3, .noticeRing, .distances, .stallTimeout, .masters, .extent, .overlap, .reserved]

def paramFields : List HeaderField :=
  [.ruleCount, .defaultPocket, .noReadPocket, .minGrade, .missLimit, .attnMode, .paramReserved]

theorem mem_layoutFields_iff (f : HeaderField) : f ∈ layoutFields ↔ f.code ≤ 16 := by
  cases f with
  | station st => fin_cases st <;> decide
  | _ => decide

theorem mem_paramFields_iff (f : HeaderField) : f ∈ paramFields ↔ 17 ≤ f.code := by
  cases f with
  | station st => fin_cases st <;> decide
  | _ => decide

theorem layoutChecks_fields (l : Layout) (cb : BitVec 4) (cm : MasterNo) :
    (l.checks cb cm).map Prod.fst = layoutFields := rfl

theorem paramChecks_fields (bs : List Byte) (P : Nat) : (paramChecks bs P).map Prod.fst = paramFields :=
  rfl

theorem layoutChecks_hold (bs : List Byte) (cb : BitVec 4) (cm : MasterNo) (P : Nat) :
    ∀ c ∈ (Layout.mk (bs.take 60)).checks cb cm, c.2 = true ↔ c.1.Holds bs cb cm P := by
  simp only [Layout.checks, List.forall_mem_append, List.forall_mem_cons, List.forall_mem_map, stationGood_iff bs cb cm P, overlap_iff bs cb cm P, extent_iff bs cb cm P,
    reserved_iff bs cb cm P, decide_eq_true_iff, masters_iff bs cb cm P, iff_self, true_and,
    implies_true]
  simp [HeaderField.Holds, Layout.magic, Layout.version, Layout.pocketCount, Layout.inductionCount,
    Layout.inductionBase, Layout.inductionMaster, Layout.gateBase, Layout.gateMaster, Layout.noticeSize,
    Layout.noticeBase, Layout.decideDistance, Layout.lostDistance, Layout.stallTimeout, le32At_take,
    le16At_take, byteAt_take, Config.planMagic, and_assoc]
  omega

theorem paramChecks_hold (bs : List Byte) (cb : BitVec 4) (cm : MasterNo) (P : Nat) :
    ∀ c ∈ paramChecks bs P, c.2 = true ↔ c.1.Holds bs cb cm P := by
  have mode : byteAt bs 11 ≤ 1 ↔ byteAt bs 11 = 0 ∨ byteAt bs 11 = 1 := by omega
  simp [paramChecks, HeaderField.Holds, zeroBytes_iff, mode]

/-- The header failures that a load reports (R27, R29). -/
theorem headerFailures (bs : List Byte) (cb : BitVec 4) (cm : MasterNo) (P : Nat) :
    (∀ f, firstFailure ((Layout.mk (bs.take 60)).checks cb cm) = some f ↔
      f.code ≤ 16 ∧ ¬f.Holds bs cb cm P ∧ ∀ g : HeaderField, g.code < f.code → g.Holds bs cb cm P) ∧
    (firstFailure ((Layout.mk (bs.take 60)).checks cb cm) = none ↔
      ∀ f : HeaderField, f.code ≤ 16 → f.Holds bs cb cm P) ∧
    (∀ f, firstFailure (paramChecks bs P) = some f ↔
      17 ≤ f.code ∧ ¬f.Holds bs cb cm P ∧
      ∀ g : HeaderField, 17 ≤ g.code → g.code < f.code → g.Holds bs cb cm P) ∧
    (firstFailure (paramChecks bs P) = none ↔
      ∀ f : HeaderField, 17 ≤ f.code → f.Holds bs cb cm P) := by
  refine ⟨fun f => ?_, ?_, fun f => ?_, ?_⟩
  · rw [firstFailure_eq_some_iff (layoutChecks_hold bs cb cm P) (by rw [layoutChecks_fields]; decide),
      layoutChecks_fields]
    simp only [mem_layoutFields_iff]
    refine and_congr_right fun block0 => and_congr_right fun _ => forall_congr' fun g => ?_
    exact ⟨fun held less => held (by omega) less, fun held _ less => held less⟩
  · rw [firstFailure_eq_none_iff (layoutChecks_hold bs cb cm P), layoutChecks_fields]
    simp only [mem_layoutFields_iff]
  · rw [firstFailure_eq_some_iff (paramChecks_hold bs cb cm P) (by rw [paramChecks_fields]; decide),
      paramChecks_fields]
    simp only [mem_paramFields_iff]
  · rw [firstFailure_eq_none_iff (paramChecks_hold bs cb cm P), paramChecks_fields]
    simp only [mem_paramFields_iff]

/-! ### Pocket and rule blocks (R30, R31) -/

theorem pocketPosition_iff (bs : List Byte) (i p P : Nat) :
    (if p < P then !pocketRecordGood (pocketRecordBytes bs i) p P
      else !zeroBytes (pocketRecordBytes bs i) 0 8) = false ↔ PocketPositionGood bs i p P := by
  have byte {k : Nat} (below : k < 8) : byteAt (pocketRecordBytes bs i) k = byteAt bs (8 * i + k) :=
    byteAt_slice bs _ below
  have unused : (∀ k < 8, byteAt (pocketRecordBytes bs i) (0 + k) = 0) ↔
      ∀ k < 8, byteAt bs (8 * i + k) = 0 :=
    forall₂_congr fun k below => by rw [Nat.zero_add, byte below]
  unfold PocketPositionGood
  split
  case isFalse => rw [Bool.not_eq_false', zeroBytes_iff, unused]
  case isTrue =>
    have two : (∀ k < 2, byteAt (pocketRecordBytes bs i) (6 + k) = 0) ↔
        byteAt bs (8 * i + 6) = 0 ∧ byteAt bs (8 * i + 7) = 0 := by
      rw [← byte (show 6 < 8 by decide), ← byte (show 7 < 8 by decide)]
      exact ⟨fun zero => ⟨zero 0 (by decide), zero 1 (by decide)⟩, fun ⟨six, seven⟩ k below => by
        interval_cases k <;> assumption⟩
    have opens : byteAt bs (8 * i + 5) ≤ 1 ↔ byteAt bs (8 * i + 5) = 0 ∨ byteAt bs (8 * i + 5) = 1 := by
      omega
    simp only [pocketRecordGood, Bool.not_eq_false', Bool.and_eq_true, Bool.or_eq_true,
      decide_eq_true_iff, zeroBytes_iff, two, le16At, byte (show 0 < 8 by decide),
      byte (show 1 < 8 by decide), byte (show 2 < 8 by decide), byte (show 3 < 8 by decide),
      byte (show 4 < 8 by decide), byte (show 5 < 8 by decide), opens, and_assoc, Nat.add_zero,
      Nat.add_assoc, Nat.reduceAdd, Classical.or_iff_not_imp_left (a := p ≠ 0), not_not]

theorem firstInRange_eq_some_iff {n : Nat} {bad : Nat → Bool} {good : Nat → Prop}
    (meaning : ∀ i, bad i = false ↔ good i) (i : Nat) :
    (List.range n).find? bad = some i ↔ i < n ∧ ¬ good i ∧ ∀ k < i, good k := by
  rw [List.find?_range_eq_some]
  have found (k : Nat) : bad k = true ↔ ¬ good k := by rw [← meaning, Bool.not_eq_false]
  simp only [List.mem_range, Bool.not_eq_true', meaning, found, and_left_comm]

theorem firstInRange_eq_none_iff {n : Nat} {bad : Nat → Bool} {good : Nat → Prop}
    (meaning : ∀ i, bad i = false ↔ good i) :
    (List.range n).find? bad = none ↔ ∀ i < n, good i := by
  rw [List.find?_range_eq_none]
  simp only [Bool.not_eq_true', meaning]

theorem pocketBlockFailure_iff (bs : List Byte) (j P d : Nat) :
    (pocketBlockFailure bs j P = some d ↔
      (∃ i < 7, d = 7 * j + i ∧ ¬PocketPositionGood bs i (7 * j + i) P ∧
        ∀ k < i, PocketPositionGood bs k (7 * j + k) P) ∨
      (d = 128 + j ∧ (∀ i < 7, PocketPositionGood bs i (7 * j + i) P) ∧
        ∃ k < 4, byteAt bs (56 + k) ≠ 0)) ∧
    (pocketBlockFailure bs j P = none ↔
      (∀ i < 7, PocketPositionGood bs i (7 * j + i) P) ∧ ∀ k < 4, byteAt bs (56 + k) = 0) := by
  have meaning (i : Nat) := pocketPosition_iff bs i (7 * j + i) P
  have first := firstInRange_eq_some_iff (n := 7) meaning
  have clean := firstInRange_eq_none_iff (n := 7) meaning
  have tail := zeroBytes_iff bs 56 4
  unfold pocketBlockFailure
  split
  case h_1 i found =>
    obtain ⟨inside, fails, before⟩ := (first i).1 found
    have dirty : ¬ ∀ i < 7, PocketPositionGood bs i (7 * j + i) P := fun good => fails (good i inside)
    refine ⟨⟨fun same => .inl ⟨i, inside, (Option.some.inj same).symm, fails, before⟩, ?_⟩,
      ⟨nofun, fun ⟨good, _⟩ => absurd good dirty⟩⟩
    rintro (⟨i', inside', rfl, fails', before'⟩ | ⟨-, good, -⟩)
    · rw [Option.some.inj (found.symm.trans ((first i').2 ⟨inside', fails', before'⟩))]
    · exact absurd good dirty
  case h_2 unfound =>
    have good := clean.1 unfound
    have inside : ¬ ∃ i < 7, d = 7 * j + i ∧ ¬PocketPositionGood bs i (7 * j + i) P ∧
        ∀ k < i, PocketPositionGood bs k (7 * j + k) P := fun ⟨i, below, _, fails, _⟩ =>
      fails (good i below)
    by_cases zero : zeroBytes bs 56 4 = true
    · rw [if_pos zero]
      have zero := tail.1 zero
      refine ⟨⟨nofun, ?_⟩, ⟨fun _ => ⟨good, zero⟩, fun _ => rfl⟩⟩
      rintro (failing | ⟨-, -, k, below, set⟩)
      · exact absurd failing inside
      · exact absurd (zero k below) set
    · rw [if_neg zero]
      have set : ∃ k < 4, byteAt bs (56 + k) ≠ 0 := by simpa using mt tail.2 zero
      refine ⟨⟨fun same => .inr ⟨(Option.some.inj same).symm, good, set⟩, ?_⟩,
        ⟨nofun, fun ⟨_, clear⟩ => absurd (tail.2 clear) zero⟩⟩
      rintro (failing | ⟨rfl, -, -⟩)
      · exact absurd failing inside
      · rfl

theorem selectorOf_isSome_iff (n : Nat) : (selectorOf n).isSome = true ↔ n ≤ 4 := by
  match n with
  | 0 | 1 | 2 | 3 | 4 => decide
  | n + 5 => exact ⟨nofun, fun small => by omega⟩

theorem forwardOf_isSome_iff (n : Nat) : (forwardOf n).isSome = true ↔ n ≤ 2 := by
  match n with
  | 0 | 1 | 2 => decide
  | n + 3 => exact ⟨nofun, fun small => by omega⟩

theorem ruleOf_isSome_iff (r : List Byte) (P : Nat) : (ruleOf r P).isSome = true ↔
    byteAt r 0 % 8 ≤ 4 ∧ byteAt r 0 / 8 % 2 = 0 ∧ byteAt r 0 / 16 % 4 ≤ 2 ∧ byteAt r 0 / 64 = 0 ∧
      byteAt r 1 < P ∧ le32At r 4 ≤ le32At r 8 := by
  have selector := selectorOf_isSome_iff (byteAt r 0 % 8)
  have forward := forwardOf_isSome_iff (byteAt r 0 / 16 % 4)
  unfold ruleOf
  by_cases rest : byteAt r 0 / 8 % 2 = 0 ∧ byteAt r 0 / 64 = 0 ∧ byteAt r 1 < P ∧
      le32At r 4 ≤ le32At r 8
  · obtain ⟨low, high, pocket, range⟩ := rest
    rw [if_pos ⟨low, high, pocket, range⟩, ← selector, ← forward]
    simp only [low, high, pocket, range, and_true, true_and]
    cases selectorOf (byteAt r 0 % 8) <;> cases forwardOf (byteAt r 0 / 16 % 4) <;> simp
  · rw [if_neg rest]
    exact ⟨nofun, fun ⟨_, low, _, high, pocket, range⟩ => absurd ⟨low, high, pocket, range⟩ rest⟩

theorem rulePosition_iff (bs : List Byte) (i r P N : Nat) :
    (if r < N then (ruleOf (ruleBytes bs i) P).isNone else !zeroBytes (ruleBytes bs i) 0 12) = false ↔
      RulePositionGood bs i r P N := by
  have byte {k : Nat} (below : k < 12) : byteAt (ruleBytes bs i) k = byteAt bs (12 * i + k) :=
    byteAt_slice bs _ below
  have word {k : Nat} (below : k < 9) : le32At (ruleBytes bs i) k = le32At bs (12 * i + k) := by
    simp only [le32At, le16At, Nat.add_assoc]
    rw [byte (by omega), byte (by omega), byte (by omega), byte (by omega)]
  unfold RulePositionGood
  split
  case isTrue =>
    rw [Option.isNone_eq_false_iff, ruleOf_isSome_iff, byte (show 0 < 12 by decide),
      byte (show 1 < 12 by decide), word (show 4 < 9 by decide), word (show 8 < 9 by decide)]
    rfl
  case isFalse =>
    rw [Bool.not_eq_false', zeroBytes_iff]
    exact forall₂_congr fun k below => by rw [Nat.zero_add, byte below]

theorem ruleBlockFailure_iff (bs : List Byte) (j P N d : Nat) :
    (ruleBlockFailure bs j P N = some d ↔
      ∃ i < 5, d = 5 * j + i ∧ ¬RulePositionGood bs i (5 * j + i) P N ∧
        ∀ k < i, RulePositionGood bs k (5 * j + k) P N) ∧
    (ruleBlockFailure bs j P N = none ↔ ∀ i < 5, RulePositionGood bs i (5 * j + i) P N) := by
  have meaning (i : Nat) := rulePosition_iff bs i (5 * j + i) P N
  have first := firstInRange_eq_some_iff (n := 5) meaning
  have clean := firstInRange_eq_none_iff (n := 5) meaning
  refine ⟨?_, Option.map_eq_none_iff.trans clean⟩
  unfold ruleBlockFailure
  rw [Option.map_eq_some_iff]
  constructor
  · rintro ⟨i, found, rfl⟩
    obtain ⟨inside, fails, before⟩ := (first i).1 found
    exact ⟨i, inside, rfl, fails, before⟩
  · rintro ⟨i, inside, rfl, fails, before⟩
    exact ⟨i, (first i).2 ⟨inside, fails, before⟩, rfl⟩

end Sys2Proof.Proofs
end

section
/-! PROOFS. Loads that fail (O52). -/

namespace Sys2Proof.Proofs

open Sys2Proof Sys2Proof.Machine Sys2Proof.Laws

/-! ### Resolving without a plan (R37, R101) -/

theorem decideLetter_noPlan {plan : Plan} (invalid : plan.state = .invalid) (pk : Pockets) (l : Letter)
    (sum : Summary) : decideLetter plan pk l sum = ⟨0, 0, .noPlan, false, none⟩ := if_pos invalid

theorem resolveLetter_noPlan {plan : Plan} (invalid : plan.state = .invalid) (pk : Pockets)
    {l : Letter} (awaits : l.state = .awaitPlan) :
    resolveLetter plan pk l = (reservePocket pk 0, l.decidedNoPlan) := by
  rw [resolveLetter_of_decided (by simp [invalid]), decideLetter_noPlan invalid, Letter.decidedNoPlan,
    if_pos awaits]
  rfl

/-- The pocket table with `n` more letters in flight to pocket 0. -/
def reserveReject (pk : Pockets) (n : Nat) : Pockets :=
  pk.set 0 { pk[0] with inFlight := pk[0].inFlight + n }

theorem reserveReject_zero (pk : Pockets) : reserveReject pk 0 = pk := Vector.set_getElem_self _

theorem reserveReject_succ (pk : Pockets) (n : Nat) :
    reserveReject (reservePocket pk 0) n = reserveReject pk (n + 1) := by
  simp [reserveReject, reservePocket, Nat.add_assoc, Nat.add_comm n]

/-- Under an INVALID plan every waiting letter goes to pocket 0, whatever the reservations before it. -/
theorem resolveList_noPlan {plan : Plan} (invalid : plan.state = .invalid) (pk : Pockets)
    (ls : List Letter) : resolveList plan Letter.awaiting pk ls =
      (reserveReject pk (ls.countP fun l => decide (l.state = .awaitPlan)),
        ls.map Letter.decidedNoPlan) := by
  induction ls generalizing pk with
  | nil => rw [List.countP_nil, reserveReject_zero]; rfl
  | cons l ls ih =>
    by_cases awaits : l.state = .awaitPlan
    · rw [resolveList_of_ready (by simp [Letter.awaiting, awaits]), resolveLetter_noPlan invalid pk awaits,
        ih, reserveReject_succ, List.countP_cons_of_pos (by simp [awaits])]
      rfl
    · have stands : l.decidedNoPlan = l := if_neg awaits
      rw [resolveList, if_neg (by simp [Letter.awaiting, awaits]), ih,
        List.countP_cons_of_neg (by simp [awaits]), List.map_cons, stands]

theorem resolveAwaiting_noPlan {s : State} (invalid : s.plan.state = .invalid) :
    resolveAwaiting s = { s with
      pockets := reserveReject s.pockets
        (s.transit.letters.countP fun l => decide (l.state = .awaitPlan))
      transit := { s.transit with letters := s.transit.letters.map Letter.decidedNoPlan } } := by
  rw [resolveAwaiting, State.resolveWhere, resolveList_noPlan invalid]

/-! ### The failure (R37) -/

theorem failLoad_failedTo (ld : Load) (cause : LoadCause) (detail : Word) (s : State) :
    s.LoadFailedTo (failLoad ld cause detail s) ld cause detail := by
  unfold failLoad ackLoad
  rw [resolveAwaiting_noPlan (by rfl)]
  refine ⟨?_, ?_, ?_, ?_, ?_⟩
  · simp
  · simp
  · simp only [acknowledge_frame]
    rfl
  · simp
  · apply State.eq_of_fields <;> simp

theorem failLoad_raised (ld : Load) (cause : LoadCause) (detail : Word) (s : State) :
    s.Raised (failLoad ld cause detail s) [ackNotice (failLoad ld cause detail s).cmd.last] := by
  obtain ⟨-, -, -, cmd, -⟩ := failLoad_failedTo ld cause detail s
  rw [cmd]
  exact (acknowledge_raised _ _).congr_left (by simp) (by simp) (by simp) (by simp)

theorem abandonedBy_plan (g : Granted) : g.abandonedBy .plan =
    if g.job = .planRead then { g with abandoned := true } else g := by
  unfold Granted.abandonedBy
  cases job : g.job <;> simp [Job.requester]

/-! ### The causes found in a block (R26 to R31) -/

/-- What the load `ld` finds wrong with the block of the bytes `bs`. -/
def BlockFails (s : State) (ld : Load) (bs : List Byte) (cause : LoadCause) (detail : Nat) : Prop :=
  (blockCrcGood bs = false ∧ cause = .crc ∧ detail = ld.block) ∨
  (blockCrcGood bs = true ∧ le16At bs 60 ≠ ld.block ∧ cause = .sequence ∧ detail = ld.block) ∨
  (blockCrcGood bs = true ∧ le16At bs 60 = ld.block ∧
    ((ld.layout = none ∧ cause = .header ∧ ∃ f,
      firstFailure ((Layout.mk (bs.take 60)).checks s.cb s.master) = some f ∧ detail = f.code) ∨
     (ld.layout = none ∧ cause = .layoutLocked ∧ detail = 0 ∧
      firstFailure ((Layout.mk (bs.take 60)).checks s.cb s.master) = none ∧
      s.plan.layout ≠ some ⟨bs.take 60⟩ ∧ (s.transport.line ≠ .stopped ∨ s.transit.letters ≠ [])) ∨
     (∃ l, ld.layout = some l ∧ ld.params = none ∧ cause = .header ∧ ∃ f,
      firstFailure (paramChecks bs l.pocketCount) = some f ∧ detail = f.code) ∨
     (∃ l p, ld.layout = some l ∧ ld.params = some p ∧
      ((ld.block < 2 + pocketBlocks l.pocketCount ∧ cause = .pocketRecord ∧
        pocketBlockFailure bs (ld.block - 2) l.pocketCount = some detail) ∨
       (2 + pocketBlocks l.pocketCount ≤ ld.block ∧ cause = .ruleRecord ∧
        ruleBlockFailure bs (ld.block - 2 - pocketBlocks l.pocketCount) l.pocketCount
          p.ruleCount = some detail)))))

theorem checkLayoutBlock_of_locked {ld : Load} {bs : List Byte} {s : State}
    (good : firstFailure ((Layout.mk (bs.take 60)).checks s.cb s.master) = none)
    (differs : s.plan.layout ≠ some ⟨bs.take 60⟩) (locked : s.layoutLocked = true) :
    checkLayoutBlock ld bs s = failLoad ld .layoutLocked 0#32 s := by
  have changed : (s.plan.layout != some ⟨bs.take 60⟩) = true := bne_iff_ne.2 differs
  simp only [checkLayoutBlock, good, changed, locked, Bool.and_self, if_true]

theorem checkBlock_fails {s : State} {ld : Load} {cause : LoadCause} {detail : Nat}
    (fails : BlockFails s ld (wordsBytes ld.words) cause detail) :
    checkBlock ld s = failLoad ld cause (BitVec.ofNat 32 detail) s := by
  generalize bytes : wordsBytes ld.words = bs at fails
  rcases fails with ⟨crc, rfl, rfl⟩ | ⟨crc, number, rfl, rfl⟩ | ⟨crc, number, fails⟩
  · simp [checkBlock, bytes, crc]
  · simp [checkBlock, bytes, crc, number]
  rw [checkBlock_of_sound bytes.symm crc number]
  rcases fails with ⟨layout, rfl, f, found, rfl⟩ | ⟨layout, rfl, rfl, good, differs, locked⟩ |
    ⟨l, layout, params, rfl, f, found, rfl⟩ | ⟨l, p, layout, params, kind⟩
  · rw [checkPayload_of_layout layout]
    simp only [checkLayoutBlock, found]
  · rw [checkPayload_of_layout layout,
      checkLayoutBlock_of_locked good differs ((layoutLocked_iff s).2 locked)]
  · rw [checkPayload_of_params layout params, checkParamBlock, found]
  · rw [checkPayload_of_records layout params]
    rcases kind with ⟨below, rfl, found⟩ | ⟨above, rfl, found⟩
    · rw [if_pos below, checkPocketBlock, found]
    · rw [if_neg (Nat.not_lt.2 above), checkRuleBlock, found]

/-- A sixteenth word whose block is bad fails the load. -/
theorem planReadDone_fails {s : State} {a : MemAccess} {ld : Load} {data : Word} {bs : List Byte}
    {cause : LoadCause} {detail : Nat} (load : s.plan.load = some ld)
    (port : s.port = some ⟨.planRead, a, false⟩) (bytes : bs = wordsBytes (ld.words ++ [data]))
    (fifteen : ld.words.length = 15) (fails : BlockFails s ld bs cause detail) :
    planReadDone (.ok data) s = failLoad ld cause (BitVec.ofNat 32 detail) (freePort s) := by
  subst bytes
  rw [planReadDone_of_word load port, if_neg (withWord_length fifteen data)]
  exact checkBlock_fails (s := freePort s) (ld := withWord ld data) fails

theorem planReadDone_of_error {s : State} {a : MemAccess} {ld : Load} (load : s.plan.load = some ld)
    (port : s.port = some ⟨.planRead, a, false⟩) : planReadDone .error s =
      failLoad ld .memory (BitVec.ofNat 32 ld.block) (setMemoryFlag (freePort s)) := by
  have load : (freePort s).plan.load = some ld := load
  rw [planReadDone_of_granted port, planAnswer, load]

/-! ### LOAD_ABORT (R41) -/

theorem commandLoadAbort_of_load {s : State} {ld : Load} (load : s.plan.load = some ld)
    (released : s.resetLow = false) (executing : s.cmd.executing = true) : commandLoadAbort s =
      ackTaken .loadAbort 0#32 (failLoad ld .aborted 0#32 s.withdrawPlan) := by
  simp [commandLoadAbort, abortLoad, load, released, executing]

/-- LOAD_ABORT's acknowledgment follows the load's. -/
theorem loadAbort_acknowledged (ld : Load) (s : State) : ∃ t t1 : State,
    ackTaken .loadAbort 0#32 (failLoad ld .aborted 0#32 s.withdrawPlan) = t ∧
      s.withdrawPlan.LoadFailedTo t1 ld .aborted 0#32 ∧
      t.cmd = { t1.cmd with
        last := ⟨0x02#8, .ok, s.sweepOpen, none, 0#32⟩, ackCount := s.cmd.ackCount + 2 } ∧
      t.sweep = .idle ∧ s.Raised t [ackNotice t1.cmd.last, ackNotice t.cmd.last] ∧
      { t with
        cmd := t1.cmd, sweep := t1.sweep, notice := t1.notice, noticeReq := t1.noticeReq } = t1 := by
  obtain ⟨-, -, -, cmd, rest⟩ := failLoad_failedTo ld .aborted 0#32 s.withdrawPlan
  have raised := failLoad_raised ld .aborted 0#32 s.withdrawPlan
  have failed := failLoad_failedTo ld .aborted 0#32 s.withdrawPlan
  generalize failLoad ld .aborted 0#32 s.withdrawPlan = t1 at *
  have sweep : t1.sweep = s.sweep := by simpa using congrArg State.sweep rest
  refine ⟨_, t1, rfl, failed, ?_, ackTaken_sweep _ _ _, ?_, ?_⟩
  · rw [ackTaken_cmd, State.sweepOpen, sweep, cmd]
    simp [State.sweepOpen, Command.opcode, BitVec.add_assoc]
  · exact ackTaken_raised_after (s := s) (raised.congr_left rfl rfl rfl rfl) _ _
  · apply State.eq_of_fields <;> simp

/-- What the notice unit has in its flags makes no difference to a failure. -/
theorem failedTo_of_flagged {s t : State} {n : NoticeUnit} {ld : Load} {cause : LoadCause} {detail : Word}
    (failed : State.LoadFailedTo { s with notice := n } t ld cause detail) :
    s.LoadFailedTo t ld cause detail := by
  obtain ⟨plan, transit, pockets, cmd, rest⟩ := failed
  exact ⟨plan, transit, pockets, cmd, congrArg (fun u : State => { u with notice := s.notice }) rest⟩

/-- Settles O52: the causes of a failure, each in its event, and the conditions on a block read from the loader's tables. -/
theorem loadFails : Obligations.LoadFails := by
  refine ⟨fun _ _ => ⟨rfl, rfl⟩, fun _ _ => ⟨rfl, rfl, rfl⟩, fun bs b => ⟨rfl, crc16_append bs b⟩,
    fun _ => decide_eq_true_iff, abandonedBy_plan, fun f => ?_, fun s ld load => ⟨?_, ?_⟩,
    headerFailures, pocketBlockFailure_iff, ruleBlockFailure_iff⟩
  · cases f <;> rfl
  · rintro a u port rfl
    refine ⟨⟨_, exec_of_effect (c := .planReadDone _) (planReadDone_of_error load port), ?_, ?_⟩, ?_⟩
    · exact failedTo_of_flagged (failLoad_failedTo _ _ _ _)
    · rintro v rfl
      exact (failLoad_raised _ _ _ _).congr_left rfl rfl rfl rfl
    · intro data bs cause detail bytes fifteen fails
      exact ⟨_, exec_of_effect (c := .planReadDone _)
        (planReadDone_fails load port bytes fifteen fails), failLoad_failedTo _ _ _ _,
        failLoad_raised _ _ _ _⟩
  · rintro released executing u rfl
    obtain ⟨t, t1, run, rest⟩ := loadAbort_acknowledged ld s
    exact ⟨t, t1, exec_of_effect (c := .loadAbort)
      ((commandLoadAbort_of_load load released executing).trans run), rest⟩

end Sys2Proof.Proofs
end

section
/-! PROOFS. Loads that complete (O53). -/

namespace Sys2Proof.Proofs

open Sys2Proof Sys2Proof.Machine Sys2Proof.Laws

/-! ### The last block passes (R35) -/

/-- The load with the sixteenth word of its last block, and with the records and rules of that block. -/
def finished (ld : Load) (data : Word) (records : List PocketRecord) (rules : List Rule) : Load :=
  { withWord ld data with records := records, rules := rules }

theorem blockPassed_of_last {ld : Load} {l : Layout} {p : Params} (layout : ld.layout = some l)
    (params : ld.params = some p) (last : ld.block + 1 = imageBlocks l.pocketCount p.ruleCount)
    (s : State) : blockPassed ld s = completeLoadWith ld l p s := by
  have known : ld.blocksKnown = some (l, p) := by rw [Load.blocksKnown, layout, params]
  have covered : ld.coveredBlocks = imageBlocks l.pocketCount p.ruleCount := by
    rw [Load.coveredBlocks, layout, params]
  unfold blockPassed
  rw [known]
  exact if_pos (last.trans covered.symm)

/-- The last block of the image: its kind, what it adds to the load, and that it passes. -/
def LastBlock (ld : Load) (bs : List Byte) (l : Layout) (p : Params) (records : List PocketRecord)
    (rules : List Rule) : Prop :=
  (ld.block < 2 + pocketBlocks l.pocketCount ∧
    pocketBlockFailure bs (ld.block - 2) l.pocketCount = none ∧
    records = ld.records ++ pocketBlockRecords bs (ld.block - 2) l.pocketCount ∧
    rules = ld.rules) ∨
  (2 + pocketBlocks l.pocketCount ≤ ld.block ∧
    ruleBlockFailure bs (ld.block - 2 - pocketBlocks l.pocketCount) l.pocketCount
      p.ruleCount = none ∧
    records = ld.records ∧
    rules = ld.rules ++ ruleBlockRules bs (ld.block - 2 - pocketBlocks l.pocketCount)
      l.pocketCount p.ruleCount)

theorem checkPayload_completes {ld : Load} {bs : List Byte} {l : Layout} {p : Params}
    {records : List PocketRecord} {rules : List Rule} (layout : ld.layout = some l)
    (params : ld.params = some p) (last : ld.block + 1 = imageBlocks l.pocketCount p.ruleCount)
    (block : LastBlock ld bs l p records rules) (data : Word) (s : State) :
    checkPayload (withWord ld data) bs s = completeLoadWith (finished ld data records rules) l p s := by
  rw [checkPayload_of_records (ld := withWord ld data) layout params,
    show (withWord ld data).block = ld.block from rfl]
  rcases block with ⟨below, good, rfl, rfl⟩ | ⟨above, good, rfl, rfl⟩
  · rw [if_pos below, checkPocketBlock_of_good good, blockPassed_of_last]
    exacts [rfl, layout, params, last]
  · rw [if_neg (Nat.not_lt.2 above), checkRuleBlock_of_good good, blockPassed_of_last]
    exacts [rfl, layout, params, last]

/-! ### The notice ring of a new layout (R166) -/

theorem attnAtLayout_eq (s : State) : attnAtLayout s = { s with notice := { s.notice with
    attn := if s.notice.mode = .level then s.levelAttn else s.notice.attn } } := by
  unfold attnAtLayout
  cases mode : s.notice.mode <;> rfl

/-- The notice unit with the ring of a new layout, before it takes up the head of its FIFO. -/
def withNewRing (s : State) : State :=
  { abandonNoticeWrite s with notice := { s.notice with
      producer := 0, consumer := 0, ringFault := false, writing := none
      attn := s.notice.mode == .first && s.notice.attn } }

theorem applyNoticeRing_eq (s : State) : applyNoticeRing s = noticePump (withNewRing s) := by
  rw [applyNoticeRing, attnAtLayout_eq]
  refine congrArg noticePump ?_
  unfold withNewRing
  cases mode : s.notice.mode <;> simp [mode, State.levelAttn]

/-- The first notice of the FIFO is begun at entry 0, where there is one and the ring has room for it. -/
theorem applyNoticeRing_begins {s : State} {l : Layout} {begun : Bool}
    (layout : s.plan.layout = some l)
    (begins : begun = decide (s.notice.fifo ≠ [] ∧ 1 % l.noticeSize ≠ 0)) :
    (applyNoticeRing s).notice = { s.notice with
      producer := 0, consumer := 0, ringFault := false
      writing := if begun then some 0 else none
      attn := s.notice.mode == .first && s.notice.attn } ∧
    (begun = false → (applyNoticeRing s).noticeReq = ⟨none, 0⟩) ∧
    (∀ h rest, s.notice.fifo = h :: rest → begun = true →
      (applyNoticeRing s).noticeReq = ⟨some ⟨.noticeWord, ⟨BitVec.ofNat 32 l.noticeBase,
        .write (h.word 0) 0xF#4⟩⟩, 0⟩) := by
  have layout' : (withNewRing s).plan.layout = some l := layout
  have size : (withNewRing s).plan.ringSize = l.noticeSize := by rw [Plan.ringSize, layout']
  rw [applyNoticeRing_eq]
  by_cases room : s.notice.fifo ≠ [] ∧ 1 % l.noticeSize ≠ 0
  · obtain rfl : begun = true := begins.trans (decide_eq_true room)
    obtain ⟨queued, room⟩ := room
    obtain ⟨h, rest, fifo⟩ := List.exists_cons_of_ne_nil queued
    obtain ⟨notice, request⟩ := noticePump_begins (s := withNewRing s) (h := h) (rest := rest) layout'
      rfl (by rw [size]; exact room) fifo rfl
    refine ⟨notice, nofun, fun h' rest' same _ => ?_⟩
    obtain ⟨rfl, -⟩ := List.cons.inj (same.symm.trans fifo)
    exact request
  · obtain rfl : begun = false := begins.trans (decide_eq_false room)
    have blocked : 1 % l.noticeSize = 0 ∨ s.notice.fifo = [] := by tauto
    have stands : noticePump (withNewRing s) = withNewRing s := noticePump_of_blocked (.inr
      (blocked.elim (fun full => .inl (by rw [size]; exact full)) fun empty => .inr (.inl empty)))
    rw [stands]
    exact ⟨rfl, fun _ => rfl, fun _ _ _ => nofun⟩

/-! ### The layout is applied or kept (R38 to R40) -/

/-- The part once step 2 of a completion has placed the layout, before FEED_HOLD is evaluated. -/
def placed (ld : Load) (l : Layout) (s : State) : State :=
  if ld.changed then applyLayout l ld.records { s with plan := { s.plan with load := none } }
  else { s with
    plan := { s.plan with load := none }
    pockets := reconfigurePockets ld.records s.pockets }

theorem placeLayout_eq (ld : Load) (l : Layout) (s : State) :
    placeLayout ld l { s with plan := { s.plan with load := none } } = evalFeedHold (placed ld l s) := rfl

theorem placed_frame (ld : Load) (l : Layout) (s : State) :
    { placed ld l s with
      port := s.port, plan := s.plan, transit := s.transit, stations := s.stations
      pockets := s.pockets, notice := s.notice, noticeReq := s.noticeReq } = s := by
  unfold placed applyLayout
  split
  · apply State.eq_of_fields <;> simp
  · rfl

theorem placed_plan (ld : Load) (l : Layout) (s : State) : (placed ld l s).plan =
    { s.plan with load := none, layout := if ld.changed then some l else s.plan.layout } := by
  unfold placed applyLayout
  split <;> simp

theorem placed_letters (ld : Load) (l : Layout) (s : State) :
    (placed ld l s).transit.letters = s.transit.letters := by
  unfold placed applyLayout
  split <;> simp

theorem placed_port (ld : Load) (l : Layout) {s : State} (free : s.port = none) :
    (placed ld l s).port = none := by
  unfold placed
  split
  · rw [applyLayout, applyNoticeRing_eq, (noticePump_frame _).2.2.2.2.2.1]
    exact congrArg (Option.map _) free
  · exact free

theorem placed_of_changed {ld : Load} (changed : ld.changed = true) (l : Layout) (s : State) :
    placed ld l s = applyNoticeRing { s with
      plan := { s.plan with load := none, layout := some l }
      transit := { s.transit with assembly := .waiting, lastTag := none, gap := none }
      stations := placeStations l s.stations
      pockets := placePockets ld.records } := if_pos changed

theorem placed_of_kept {ld : Load} (kept : ld.changed = false) (l : Layout) (s : State) :
    placed ld l s = { s with
      plan := { s.plan with load := none }
      pockets := reconfigurePockets ld.records s.pockets } := if_neg (by simp [kept])

theorem placePockets_getElem (records : List PocketRecord) (q : PocketIx) : (placePockets records)[q] =
    match records[q.val]? with
    | some r => ⟨some r.capacity, r.threshold, r.partner,
        if r.opens then .opened else .disabled, 0, 0, 1#16⟩
    | none => ⟨none, 0, none, .disabled, 0, 0, 0#16⟩ := by
  simp only [placePockets, Fin.getElem_fin, Vector.getElem_ofFn]
  cases records[q.val]? <;> rfl

theorem reconfigurePockets_getElem (records : List PocketRecord) (pk : Pockets) (q : PocketIx) :
    (reconfigurePockets records pk)[q] =
      match records[q.val]? with
      | some r => { pk[q] with capacity := some r.capacity, threshold := r.threshold, partner := r.partner }
      | none => pk[q] := by
  simp only [reconfigurePockets, Fin.getElem_fin, Vector.getElem_ofFn]
  cases records[q.val]? <;> rfl

theorem placeStations_getElem (l : Layout) (x : Vector Station 4) (st : StationIx) :
    (placeStations l x)[st] =
      ⟨if l.stationPresent st then .hunt else .off, .expected, .seek, 0, 0, none, x[st].rejects⟩ := by
  simp only [placeStations, Fin.getElem_fin, Vector.getElem_ofFn]
  rfl

/-! ### The plan is taken and its letters resolved (R38, 3 to 7) -/

/-- The plan that a completed load leaves, under the layout in force. -/
def completedPlan (layout : Option Layout) (p : Params) (rules : List Rule) : Plan :=
  ⟨.valid, none, layout, rules, p.planId, p.defaultPocket, p.noReadPocket, p.minGrade, p.missLimit⟩

/-- Steps 3 to 7 of a completion, from the part with its layout placed. -/
def completedFrom (p : Params) (rules : List Rule) (cancelled : Bool) (s : State) : State :=
  ackLoad .ok none cancelled p.planId (resolveAwaiting
    { handOver p rules s with plan := { (handOver p rules s).plan with state := .valid } })

theorem completeLoadWith_eq (ld : Load) (l : Layout) (p : Params) (s : State) :
    completeLoadWith ld l p s =
      completedFrom p ld.rules ld.sweepCancelled (evalFeedHold (placed ld l s)) := rfl

/-- The notice unit with the mask and the mode of a plan (R38, step 3; R168). -/
def withMaskMode (p : Params) (s : State) : NoticeUnit :=
  { s.notice with
    mask := p.noticeMask, mode := p.attnMode, armed := true
    attn := p.attnMode == .level && s.plan.layout.isSome && s.notice.producer != s.notice.consumer }

theorem handOver_eq (p : Params) (rules : List Rule) (s : State) : handOver p rules s = { s with
    plan := { s.plan with
      rules := rules, planId := p.planId, defaultPocket := p.defaultPocket
      noReadPocket := p.noReadPocket, minGrade := p.minGrade, missLimit := p.missLimit }
    notice := withMaskMode p s } := by
  rw [handOver, takeAttnMode_eq]
  rfl

theorem awaiting_eq : Letter.awaiting = fun x => decide (x.state = .awaitPlan) :=
  funext fun x => by
    rw [Bool.eq_iff_iff, decide_eq_true_iff, Letter.awaiting, beq_iff_eq]

/-- What steps 3 to 7 make of the part. -/
theorem completedFrom_registers (p : Params) (rules : List Rule) (cancelled : Bool) {s t : State}
    (run : completedFrom p rules cancelled s = t) (unloaded : s.plan.load = none) :
    t.plan = completedPlan s.plan.layout p rules ∧
    (t.pockets, t.transit.letters) = resolveList t.plan (fun x => decide (x.state = .awaitPlan))
      s.pockets s.transit.letters ∧
    t.transit = { s.transit with letters := t.transit.letters } ∧
    t.cmd = ⟨false, ⟨0x01#8, .ok, cancelled, none, p.planId⟩, s.cmd.ackCount + 1⟩ ∧
    { t with
      plan := s.plan, transit := s.transit, pockets := s.pockets, cmd := s.cmd, notice := s.notice
      noticeReq := s.noticeReq } = s ∧
    State.Raised { s with notice := withMaskMode p s } t [ackNotice t.cmd.last] := by
  subst run
  unfold completedFrom ackLoad
  rw [handOver_eq]
  have plan : completedPlan s.plan.layout p rules = { s.plan with
      state := .valid, rules := rules, planId := p.planId, defaultPocket := p.defaultPocket
      noReadPocket := p.noReadPocket, minGrade := p.minGrade, missLimit := p.missLimit } := by
    rw [completedPlan, ← unloaded]
  refine ⟨?_, ?_, ?_, ?_, ?_, ?_⟩
  · simp [plan]
  · simp only [acknowledge_frame, resolveAwaiting_frame, ← awaiting_eq]
    rfl
  · simp only [acknowledge_frame]
    rfl
  · simp
  · apply State.eq_of_fields <;> simp
  · rw [acknowledge_cmd]
    exact (acknowledge_raised _ _).congr_left (by simp) (by simp) (by simp) (by simp)

end Sys2Proof.Proofs
end

section
/-! PROOFS. The completion of a load as a whole (O53). -/

namespace Sys2Proof.Proofs

open Sys2Proof Sys2Proof.Machine Sys2Proof.Laws

/-! ### FEED_HOLD between the layout and the plan (R56; log 12) -/

/-- The part `t` with its notices as they stood in `s`. -/
def withNotices (t s : State) : State := { t with notice := s.notice, noticeReq := s.noticeReq }

/-- What is raised depends on the notices, the position and the layout alone. -/
theorem withNotices_raised {s s' t : State} {ns : List Notice} (raised : s.Raised s' ns)
    (position : t.transport.position = s.transport.position) (layout : t.plan.layout = s.plan.layout) :
    (withNotices t s).Raised (withNotices t s') ns := by
  have before := raised.congr_left (s' := withNotices t s) rfl position rfl layout
  have after := State.Raised.refl (s := s') (t := withNotices t s') rfl
    (position.trans raised.position.symm) rfl (layout.trans raised.layout.symm)
  simpa using before.trans after

/-- FEED_HOLD still stands as its conditions demand once letters have been resolved, for a resolution leaves the count and the capacity of pocket 0. -/
theorem holdLevel_of_resolved {s t : State} {plan : Plan} {ready : Letter → Bool} {ls : List Letter}
    (line : t.transport.line = s.transport.line) (latch : t.transport.occupancy = s.transport.occupancy)
    (layout : t.plan.layout = s.plan.layout)
    (pockets : t.pockets = (resolveList plan ready s.pockets ls).1) :
    t.holdLevel = s.holdLevel ∧ t.feedHoldNotice = s.feedHoldNotice := by
  obtain ⟨n, kept⟩ := resolveList_pocket plan ready s.pockets ls 0
  have reject : t.pocket 0 = { s.pocket 0 with inFlight := n } := by
    rw [State.pocket, pockets]
    exact kept
  exact feedHoldNotice_of_pocket line latch layout (by rw [reject]) (by rw [reject])

/-- The loader's last word, as the three parts of a completion. -/
theorem planReadDone_completes {s : State} {a : MemAccess} {ld : Load} {data : Word} {bs : List Byte}
    {l : Layout} {p : Params} {records : List PocketRecord} {rules : List Rule}
    (load : s.plan.load = some ld) (port : s.port = some ⟨.planRead, a, false⟩)
    (fifteen : ld.words.length = 15) (bytes : bs = wordsBytes (ld.words ++ [data]))
    (crc : blockCrcGood bs = true) (sequence : le16At bs 60 = ld.block) (layout : ld.layout = some l)
    (params : ld.params = some p) (last : ld.block + 1 = imageBlocks l.pocketCount p.ruleCount)
    (block : LastBlock ld bs l p records rules) : planReadDone (.ok data) s =
      completedFrom p rules ld.sweepCancelled
        (evalFeedHold (placed (finished ld data records rules) l (freePort s))) := by
  rw [planReadDone_of_block load port bytes fifteen crc sequence,
    checkPayload_completes layout params last block, completeLoadWith_eq]
  rfl

/-- Steps 2 to 7 of a completion, from the part `s` with its layout placed. -/
theorem completedFrom_held {p : Params} {rules : List Rule} {cancelled : Bool} {s t : State}
    (run : completedFrom p rules cancelled (evalFeedHold s) = t) (unloaded : s.plan.load = none) :
    t.plan = completedPlan s.plan.layout p rules ∧
    (t.pockets, t.transit.letters) = resolveList t.plan (fun x => decide (x.state = .awaitPlan))
      s.pockets s.transit.letters ∧
    t.transport = { s.transport with feedHold := t.holdLevel } ∧
    t.transit = { s.transit with letters := t.transit.letters } ∧
    t.cmd = ⟨false, ⟨0x01#8, .ok, cancelled, none, p.planId⟩, s.cmd.ackCount + 1⟩ ∧
    { t with
      plan := s.plan, transport := s.transport, transit := s.transit, pockets := s.pockets
      cmd := s.cmd, notice := s.notice, noticeReq := s.noticeReq } = s ∧
    (withNotices t s).Raised (withNotices t (evalFeedHold s))
      (if t.transport.feedHold = s.transport.feedHold then [] else [t.feedHoldNotice]) ∧
    State.Raised { withNotices t (evalFeedHold s) with
      notice := { withMaskMode p (evalFeedHold s) with
        attn := p.attnMode == .level && t.plan.layout.isSome &&
          (evalFeedHold s).notice.producer != (evalFeedHold s).notice.consumer } }
      t [ackNotice t.cmd.last] := by
  obtain ⟨plan, resolved, transit, cmd, frame, raised⟩ :=
    completedFrom_registers p rules cancelled run (by simp [unloaded])
  simp only [evalFeedHold_frame] at plan resolved transit cmd
  have layout : t.plan.layout = s.plan.layout := by rw [plan, completedPlan]
  have fed : t.transport = { s.transport with feedHold := s.holdLevel } := by
    simpa using congrArg State.transport frame
  obtain ⟨level, notice⟩ := holdLevel_of_resolved (s := s) (t := t) (by rw [fed]) (by rw [fed]) layout
    (congrArg Prod.fst resolved)
  refine ⟨plan, resolved, by rw [fed, level], transit, cmd, ?_, ?_, ?_⟩
  · have rest := congrArg (fun u : State => { u with
      transport := s.transport, notice := s.notice, noticeReq := s.noticeReq }) frame
    refine (Eq.trans ?_ rest).trans ?_ <;> apply State.eq_of_fields <;> simp
  · rw [notice, congrArg Transport.feedHold fed]
    exact withNotices_raised (evalFeedHold_raised s) (by rw [fed]) layout
  · refine raised.congr_left ?_ ?_ rfl ?_
    · simp [withMaskMode, layout]
    · simp [withNotices, fed]
    · simp [withNotices, layout]

/-- The part `t` with the registers that a completion may change as they stood in `s`. -/
def restored (t s : State) : State :=
  { t with
    port := s.port, plan := s.plan, transport := s.transport, transit := s.transit
    stations := s.stations, pockets := s.pockets, cmd := s.cmd, notice := s.notice
    noticeReq := s.noticeReq }

/-- Settles O53: the layout is placed, FEED_HOLD evaluated, the plan taken and its letters resolved, one after another. -/
theorem loadCompletes : Obligations.LoadCompletes := by
  intro s a ld data bs l p records rules load port fifteen bytes crc sequence layout params last block
  have run := planReadDone_completes load port fifteen bytes crc sequence layout params last block
  have frame := placed_frame (finished ld data records rules) l (freePort s)
  have plan := placed_plan (finished ld data records rules) l (freePort s)
  have letters := placed_letters (finished ld data records rules) l (freePort s)
  have free := placed_port (finished ld data records rules) l (s := freePort s) rfl
  have new := fun changed => placed_of_changed (ld := finished ld data records rules) changed l (freePort s)
  have old := fun kept => placed_of_kept (ld := finished ld data records rules) kept l (freePort s)
  generalize placed (finished ld data records rules) l (freePort s) = pl at *
  obtain ⟨tPlan, resolved, transport, transit, cmd, rest, held, taken⟩ :=
    completedFrom_held run.symm (by rw [plan])
  generalize answered : planReadDone (.ok data) s = t at *
  have transportKept : pl.transport = s.transport := (congrArg State.transport frame :)
  have cmdKept : pl.cmd = s.cmd := (congrArg State.cmd frame :)
  have stations : t.stations = pl.stations := (congrArg State.stations rest :)
  rw [letters] at resolved
  rw [transportKept] at transport held
  rw [cmdKept] at cmd
  refine ⟨t, withNotices t pl, withNotices t (evalFeedHold pl), pl.pockets,
    exec_of_effect (c := .planReadDone _) answered, ?_, ?_, resolved, transport, cmd, rfl, rfl, held,
    fun w same => same ▸ taken, fun changed => ?_, fun kept => ?_, ?_⟩
  · exact (congrArg State.port rest :).trans free
  · rw [tPlan, plan]
    rfl
  · have laid := new changed
    refine ⟨fun q => ?_, fun st => ?_, ?_, ?_, ?_, fun begun begins => ?_⟩
    · have pockets : pl.pockets = placePockets records := by simp [laid, finished]
      rw [pockets]
      exact placePockets_getElem records q
    · have placedStations : pl.stations = placeStations l s.stations := by simp [laid]
      rw [State.station, stations, placedStations]
      exact placeStations_getElem l s.stations st
    · rw [transit, laid]
      simp
    · rw [transit, laid]
      simp
    · rw [transit, laid]
      simp
    · rw [withNotices, laid]
      exact applyNoticeRing_begins (s := { freePort s with
        plan := { s.plan with load := none, layout := some l }
        transit := { s.transit with assembly := .waiting, lastTag := none, gap := none }
        stations := placeStations l s.stations
        pockets := placePockets records }) rfl begins
  · have stands := old kept
    refine ⟨fun q => ?_, ?_, ?_, ?_, ?_⟩
    · rw [stands]
      exact reconfigurePockets_getElem records s.pockets q
    · exact stations.trans (congrArg State.stations stands :)
    · rw [transit, stands]
      rfl
    · rw [withNotices, stands]
      rfl
    · rw [withNotices, stands]
      rfl
  · exact (congrArg (restored · s) rest :).trans (congrArg (restored · s) frame :)

end Sys2Proof.Proofs
end
